-- ==== Sys2Proof/Word.lean ====
section
/-! DEFINITION. The register word, the bus byte and the Montgomery radix (00_scope.md R7, R14). -/

namespace Sys2Proof

/-- A register of the block: 64 bits, bit 0 the least significant (R7, R14). -/
abbrev Word := BitVec 64

/-- One byte lane of the bus (R84). -/
abbrev Byte := BitVec 8

/-- The OPCODE field of a command word (R110). -/
abbrev Opcode := BitVec 8

/-- The Montgomery radix R = 2^64, also the modulus of every `mod 2^64` (R7, R12). -/
abbrev radix : Nat := 2 ^ 64

end Sys2Proof
end

