-- ==== Sys2Proof/Config.lean ====
section
/-! DEFINITION. What an implementation fixes: the two open parameters of 00_scope.md R9, BASE and LAT. Both rest on
opaque constants without a body, so that no proof can lean on a value of theirs. -/

namespace Sys2Proof

/-- The number of the 0x1000-byte page the platform puts the register window at (R9, D6). Open: no value is known. -/
opaque Config.basePage : Nat

/-- BASE, the byte address of offset 0x00: a multiple of 0x1000 (R9, D6). -/
def Config.base : Nat := 0x1000 * Config.basePage

/-- LAT minus one, of an OPCODE and the values of the command's own operands (R9, D28). Open: no value is known. -/
opaque Config.latPred : Opcode → List Word → Nat

/-- LAT(op, operands): the cycles from the accepting CMD write to the completion, finite and at least 1 (R9, R320). -/
def Config.lat (op : Opcode) (operands : List Word) : Nat := Config.latPred op operands + 1

end Sys2Proof
end

