-- ==== Sys2Proof/Syntax.lean ====
section
/-! DEFINITION. The command set, revision 1: one constructor per row of spec/opcode_table.json (30_encoding.md R111).
A command has no register specifier, no immediate and no mode field (R110), so no constructor has an argument. -/

namespace Sys2Proof

/-- The 14 commands of the block (R111), in the order of the opcode map. -/
inductive Instr where
  /-- no operation (R150) -/
  | nop
  /-- 64 by 64 to 128 bit unsigned multiply (R192) -/
  | wmul
  /-- Hensel inverse of N modulo 2^64 (R197) -/
  | montInv
  /-- Montgomery form of 1 (R221) -/
  | montOne
  /-- the Montgomery context of N (R228) -/
  | montCtx
  /-- conversion into Montgomery form (R211) -/
  | toMont
  /-- conversion out of Montgomery form (R215) -/
  | fromMont
  /-- Montgomery reduction of B || A (R201) -/
  | montReduce
  /-- Montgomery product (R206) -/
  | montMul
  /-- Montgomery exponentiation (R225) -/
  | montPow
  /-- strong-probable-prime round in Montgomery form (R245) -/
  | sprp64
  /-- 32-bit modular multiply (R162) -/
  | mulmod32
  /-- 32-bit modular exponentiation (R166) -/
  | powmod32
  /-- 32-bit strong-probable-prime round (R171) -/
  | sprp32
  deriving DecidableEq, Repr

end Sys2Proof
end

