-- ==== Sys2Proof/WellFormed.lean ====
section
/-! DEFINITION. Which command words are well formed (30_encoding.md R110, R112, R113). A command of `Instr` has no
field (R110), so every command is well formed; what can be ill formed is the 64-bit word a host writes to CMD. The two
checks are written from the ranges of R113, not from the opcode map, so that they check the decoder. -/

namespace Sys2Proof

/-- The reserved field RSVD, bits [63:8], is 0 (R110, R113). -/
def rsvdClear (c : Word) : Bool := c.toNat / 2 ^ 8 == 0

/-- The OPCODE field, bits [7:0], is outside the reserved ranges 0x0B..0x0F and 0x13..0xFF (R113). -/
def opcodeAssigned (c : Word) : Bool :=
  let op := c.toNat % 2 ^ 8
  decide (op ≤ 0x0A) || (decide (0x10 ≤ op) && decide (op ≤ 0x12))

/-- A well-formed command word: both checks pass (R112, R113). -/
def wordWellFormed (c : Word) : Bool := rsvdClear c && opcodeAssigned c

/-- Well-formedness of a command as syntax: a command has no operand field that could be out of range (R110, R116). -/
def Instr.wellFormed : Instr → Bool
  | .nop | .wmul | .montInv | .montOne | .montCtx | .toMont | .fromMont => true
  | .montReduce | .montMul | .montPow | .sprp64 | .mulmod32 | .powmod32 | .sprp32 => true

end Sys2Proof
end

