-- ==== Sys2Proof/Decode.lean ====
section
/-! DEFINITION. The command decoder and encoder (30_encoding.md R110 to R113, R116) and the byte lanes a command word
travels in (20_memory.md R84). Decoding is total on every 64-bit word and on every list of bytes, and names its reason
where it refuses. -/

namespace Sys2Proof

/-- Why a word or a list of bytes is no command. -/
inductive DecodeError where
  /-- bits [63:8] of the word are not all 0 (R113, first row) -/
  | reservedBits
  /-- RSVD is 0 and OPCODE is in 0x0B..0x0F or 0x13..0xFF (R113, second and third row) -/
  | reservedOpcode
  /-- not eight bytes: a command is exactly one 64-bit write (R110, R116) -/
  | wrongLength
  deriving DecidableEq, Repr

/-- One row of the opcode map: command `cmd` is selected when `c and mask = value` (R112). -/
structure OpcodeRow where
  cmd : Instr
  mask : Word
  value : Word
  deriving DecidableEq, Repr

/-- The OPCODE of each command (R111). -/
def opcode : Instr → Opcode
  | .nop => 0x00
  | .wmul => 0x01
  | .montInv => 0x02
  | .montOne => 0x03
  | .montCtx => 0x04
  | .toMont => 0x05
  | .fromMont => 0x06
  | .montReduce => 0x07
  | .montMul => 0x08
  | .montPow => 0x09
  | .sprp64 => 0x0A
  | .mulmod32 => 0x10
  | .powmod32 => 0x11
  | .sprp32 => 0x12

/-- Every command, in the order of the opcode map (R111). -/
def allInstrs : List Instr :=
  [.nop, .wmul, .montInv, .montOne, .montCtx, .toMont, .fromMont, .montReduce, .montMul, .montPow, .sprp64,
   .mulmod32, .powmod32, .sprp32]

/-- The command word of a command: OPCODE zero-extended to 64 bits, RSVD = 0 (R110, R112). -/
def encode (i : Instr) : Word := (opcode i).setWidth 64

/-- The row of a command: the mask is all 64 bits (R112). -/
def opcodeRow (i : Instr) : OpcodeRow := { cmd := i, mask := 0xFFFF_FFFF_FFFF_FFFF, value := encode i }

/-- The opcode map as match and mask pairs (R111, R112). -/
def opcodeTable : List OpcodeRow := allInstrs.map opcodeRow

/-- Whether a row selects the word (R112). -/
def rowSelects (c : Word) (r : OpcodeRow) : Bool := c &&& r.mask == r.value

/-- Decode a value written to CMD (R112); every other value is illegal, with the class of R113 as the reason. -/
def decode (c : Word) : Except DecodeError Instr :=
  match opcodeTable.find? (rowSelects c) with
  | some r => .ok r.cmd
  | none => if rsvdClear c then .error .reservedOpcode else .error .reservedBits

/-- The command a word selects, if it is legal. -/
def decode? (c : Word) : Option Instr :=
  match decode c with
  | .ok i => some i
  | .error _ => none

/-- Byte lane `k` of a 64-bit access, 0 <= k <= 7: bits [8k+7:8k] (R84). The block has no other lane. -/
def byteLane (v : Word) (k : Nat) : Byte := v.extractLsb' (8 * k) 8

/-- The eight byte lanes of a word, the lane at the lowest address first (R84). -/
def lanes (v : Word) : List Byte := (List.range 8).map (byteLane v)

/-- The number whose byte lanes are `bs`, lowest address first (R84). -/
def ofLanes (bs : List Byte) : Nat :=
  match bs with
  | [] => 0
  | b :: rest => b.toNat + 2 ^ 8 * ofLanes rest

/-- Decode the eight bytes of one CMD write, lowest address first (R84, R110). -/
def decodeBytes (bs : List Byte) : Except DecodeError Instr :=
  if bs.length = 8 then decode (BitVec.ofNat 64 (ofLanes bs)) else .error .wrongLength

/-- The command the decoder reads from the low `nbits` bits of `w`, bits numbered as spec/opcode_table.json numbers them
(bit 0 least significant); the bits above `nbits` are 0. The word is laid out in its byte lanes and decoded from them. -/
def decodeTableWord (nbits w : Nat) : Option Instr :=
  match decodeBytes (lanes (BitVec.ofNat 64 (w % 2 ^ nbits))) with
  | .ok i => some i
  | .error _ => none

end Sys2Proof
end

