-- ==== Sys2Proof/Machine/State.lean ====
section
/-! DEFINITION. The state of the block as plain data (10_state.md), the transactions and responses of its bus port
(20_memory.md R80, R81), the in-flight command record (R48), and the state after reset (R50). The three fields `inputs`,
`latChoices` and `reply` are the block's surroundings as data: what its pins will carry, which latency the schedule
chooses, and what its bus port answered at the last edge. -/

namespace Sys2Proof.Machine

/-- The 13 architectural registers (R30). -/
inductive Reg where
  | id | cmd | status | n | a | b | e | ninv | one | resLo | resHi | irqEn | irqStat
  deriving DecidableEq, Repr

/-- The kind of a bus transaction (R81). -/
inductive AccessKind where
  | read | write
  deriving DecidableEq, Repr

/-- A bus transaction `(kind, addr, size, wdata)` (R81). The byte address is held as its distance from BASE: `off` is
the `addr - BASE` of R82, negative below the window (log entry 1). `wdata` is the data of a write; a read ignores it. -/
structure Req where
  kind : AccessKind
  off : Int
  size : Nat
  wdata : Word
  deriving DecidableEq, Repr

/-- What the pins carry at one rising edge of `clk` (R80): the level of `rst`, and the transaction presented, if any. -/
structure Cycle where
  rst : Bool
  req : Option Req
  deriving DecidableEq, Repr

/-- A bus response (R81, R87). -/
inductive Resp where
  | okay | slverr | decerr
  deriving DecidableEq, Repr

/-- The answer to a transaction: the response, and `rdata` for a read (R81). -/
structure Reply where
  resp : Resp
  rdata : Option Word
  deriving DecidableEq, Repr

/-- The errors a command can end with (R261). ENONE is the absence of an error; codes 5..15 are never produced. -/
inductive CmdError where
  /-- CMD[63:8] is not 0, or CMD[7:0] is a reserved opcode: code 1 -/
  | eillegal
  /-- CTX_VALID = 0 for a command that needs the context: code 2 -/
  | enoctx
  /-- the modulus is 0: code 3 -/
  | edivzero
  /-- N is outside the command's domain: code 4 -/
  | edomain
  deriving DecidableEq, Repr

/-- The register writes a non-immediate command makes at its completion (R42, R48, R144). -/
inductive Writes where
  /-- RES_LO and RES_HI, both in one step (R42) -/
  | result (lo hi : Word)
  /-- NINV, ONE and CTX_VALID <- 1: MONT_CTX alone (R40, R228) -/
  | context (ninv one : Word)
  deriving DecidableEq, Repr

/-- The in-flight command record, which exists exactly while BUSY = 1 (R48). -/
structure InFlight where
  op : Opcode
  outcome : Writes
  remaining : Nat
  deriving DecidableEq, Repr

/-- The state of the block. The ID register is hard-wired (R33) and stands in the operation that reads registers;
STATUS.BUSY is the view `State.busy` of `inFlight`; STATUS.ERR and STATUS.ERRCODE are views of `error`; the `irq` output
is the view `State.irq`. -/
structure State where
  /-- CMD: all 64 bits of the last accepted CMD write (R34) -/
  cmd : Word
  /-- N, the modulus (R36, R37) -/
  regN : Word
  /-- A, first operand (R36) -/
  regA : Word
  /-- B, second operand (R36) -/
  regB : Word
  /-- E, the exponent (R36) -/
  regE : Word
  /-- NINV of the Montgomery context (R40) -/
  ninv : Word
  /-- ONE of the Montgomery context (R40) -/
  one : Word
  /-- RES_LO (R42) -/
  resLo : Word
  /-- RES_HI (R42) -/
  resHi : Word
  /-- STATUS.DONE (R35) -/
  done : Bool
  /-- STATUS.ERR and STATUS.ERRCODE: the error of the last completed command (R35, R264) -/
  error : Option CmdError
  /-- STATUS.CTX_VALID (R35, R40) -/
  ctxValid : Bool
  /-- STATUS.WERR, sticky (R35, R146) -/
  werr : Bool
  /-- IRQ_EN.DONE_IE (R44) -/
  doneIe : Bool
  /-- IRQ_STAT.DONE_IP (R45) -/
  doneIp : Bool
  /-- the in-flight command record (R48) -/
  inFlight : Option InFlight
  /-- the bus port's answer at the last edge (R81); none where no transaction was answered -/
  reply : Option Reply
  /-- the pins of the coming edges; an empty list is an idle bus with `rst` low (the model's own field) -/
  inputs : List Cycle
  /-- the schedule's choice of LAT - 1 for the coming non-immediate launches (R320; the model's own field); where the
  list is empty the latency is `Config.lat` -/
  latChoices : List Nat
  deriving DecidableEq, Repr

/-- No fault: the block has no trap, no stuck state and no undefined result (R149, R260), a command that cannot run
completes with an error code in STATUS, and a refused transaction gets a bus error response. So the type of faults is
empty: that no step faults holds by its type. -/
inductive Fault where
  deriving DecidableEq, Repr

/-- Why a step is refused. -/
inductive Refusal where
  /-- An instruction without a meaning yet, raised by `exec` alone; safe. No arm of `exec` raises it any more. -/
  | notModelled (mnemonic : String)
  /-- A transaction presented while `rst` = 1, raised by `step`: the host must not make it and the spec says nothing of a
  run that contains one (R300, R286; 93_implementation_defined.md row 2.10); safe. -/
  | transactionDuringReset
  deriving DecidableEq, Repr

/-- The block right after reset (R50), with nothing presented on its pins yet. -/
def State.reset : State where
  cmd := 0
  regN := 0
  regA := 0
  regB := 0
  regE := 0
  ninv := 0
  one := 0
  resLo := 0
  resHi := 0
  done := false
  error := none
  ctxValid := false
  werr := false
  doneIe := false
  doneIp := false
  inFlight := none
  reply := none
  inputs := []
  latChoices := []

end Sys2Proof.Machine
end

