-- ==== Sys2Proof/Machine/Flags.lean ====
section
/-! DEFINITION. The flags (10_state.md R35, R44 to R47): the words STATUS, IRQ_EN and IRQ_STAT as the host reads them,
the error codes, the views BUSY, ERR and ERRCODE, and the level of `irq`. No command sets a flag from its result (R47). -/

namespace Sys2Proof.Machine

/-- STATUS.BUSY: a command is in flight (R35, R48). -/
def State.busy (s : State) : Bool := s.inFlight.isSome

/-- STATUS.ERR (R35). -/
def State.err (s : State) : Bool := s.error.isSome

/-- The code of an error (R261). -/
def errorCode : CmdError → BitVec 4
  | .eillegal => 1
  | .enoctx => 2
  | .edivzero => 3
  | .edomain => 4

/-- STATUS.ERRCODE: 0, ENONE, while ERR = 0 (R35, R264). -/
def State.errCode (s : State) : BitVec 4 :=
  match s.error with
  | none => 0
  | some e => errorCode e

/-- A flag as bit `i` of a word that is otherwise 0. -/
def flagAt (i : Nat) (f : Bool) : Word := if f then BitVec.ofNat 64 (2 ^ i) else 0

/-- The STATUS word (R35): BUSY [0], DONE [1], ERR [2], CTX_VALID [3], WERR [4], ERRCODE [11:8]; [7:5] and [63:12]
read as 0. -/
def statusWord (s : State) : Word :=
  flagAt 0 s.busy ||| flagAt 1 s.done ||| flagAt 2 s.err ||| flagAt 3 s.ctxValid ||| flagAt 4 s.werr |||
    (s.errCode.setWidth 64 <<< 8)

/-- The IRQ_EN word: DONE_IE [0]; [63:1] read as 0 (R44). -/
def irqEnWord (s : State) : Word := flagAt 0 s.doneIe

/-- The IRQ_STAT word: DONE_IP [0]; [63:1] read as 0 (R45). -/
def irqStatWord (s : State) : Word := flagAt 0 s.doneIp

/-- The level of the `irq` output: DONE_IE and DONE_IP (R46). -/
def State.irq (s : State) : Bool := s.doneIe && s.doneIp

end Sys2Proof.Machine
end

