-- ==== Sys2Proof/Machine/Operands.lean ====
section
/-! DEFINITION. The operand forms (30_encoding.md R114, 10_state.md R39): a full 64-bit register, or its low 32 bits
zero-extended. No operand is sign-extended, scaled or shifted, and there are no immediates. -/

namespace Sys2Proof.Machine

/-- `x[R]`: a full register as a natural (R114). -/
def full (v : Word) : Nat := v.toNat

/-- `x[R][31:0]`: the low 32 bits of a register as a natural; bits [63:32] are ignored (R39, R114). -/
def low32 (v : Word) : Nat := v.toNat % 2 ^ 32

/-- The operand values of a command, in the order of R114: what LAT may depend on (R9). -/
def operandsOf (i : Instr) (s : State) : List Word :=
  match i with
  | .nop => []
  | .wmul => [s.regA, s.regB]
  | .montInv => [s.regN]
  | .montOne => [s.regN]
  | .montCtx => [s.regN]
  | .toMont => [s.regA, s.regN]
  | .fromMont => [s.regA, s.regN, s.ninv]
  | .montReduce => [s.regA, s.regB, s.regN, s.ninv]
  | .montMul => [s.regA, s.regB, s.regN, s.ninv]
  | .montPow => [s.regA, s.regE, s.regN, s.ninv, s.one]
  | .sprp64 => [s.regA, s.regN, s.ninv, s.one]
  | .mulmod32 => [BitVec.ofNat 64 (low32 s.regA), BitVec.ofNat 64 (low32 s.regB), BitVec.ofNat 64 (low32 s.regN)]
  | .powmod32 => [BitVec.ofNat 64 (low32 s.regA), BitVec.ofNat 64 (low32 s.regE), BitVec.ofNat 64 (low32 s.regN)]
  | .sprp32 => [BitVec.ofNat 64 (low32 s.regA), BitVec.ofNat 64 (low32 s.regN)]

end Sys2Proof.Machine
end

