-- ==== Sys2Proof/Machine/Primitives.lean ====
section
/-! DEFINITION. The operators of the rules' pseudocode (00_scope.md R11 to R13): exact arithmetic on naturals and
integers, brought into 64 bits only where a rule says so. -/

namespace Sys2Proof.Machine

/-- `lo64(v)` (R13). -/
def lo64 (v : Nat) : Nat := v % radix

/-- `hi64(v)` (R13). -/
def hi64 (v : Nat) : Nat := v / radix % radix

/-- `v mod 2^64` of an integer that may be negative, brought into [0, 2^64) (R11, R12). -/
def wrap64 (v : Int) : Nat := (v % (radix : Int)).toNat

/-- `zext_64(v)`: a natural below 2^64 as a register value (R13, R115). -/
def toWord (v : Nat) : Word := BitVec.ofNat 64 v

/-- Bit `i` of a register (R13, R14). -/
def bitOf (v : Word) (i : Nat) : Bool := v.getLsbD i

/-- `ctz(v)` over at most `fuel` bits. -/
def ctzUpTo : Nat → Nat → Nat
  | 0, _ => 0
  | fuel + 1, v => if v % 2 = 1 then 0 else ctzUpTo fuel (v / 2) + 1

/-- `ctz(v)` for 0 < v < 2^64: the largest s with 2^s dividing v (R13). -/
def ctz (v : Nat) : Nat := ctzUpTo 64 v

end Sys2Proof.Machine
end

