-- ==== Sys2Proof/Machine/Ops.lean ====
section
/-! DEFINITION. The named operations over the state: the register map and the reading of a register (10_state.md R30),
every update a rule makes, the lifecycle of a command (40_control.md R140 to R147), ending a command with an error as one
shared operation (60_exceptions.md R262, R268), the engine's share of a clock edge (R144), and the reset edge (R300).

There is no return-from-error operation (R269): the next accepted CMD write clears ERR and ERRCODE, in `State.accept`. -/

namespace Sys2Proof.Machine

/-- What a step of the block answers. -/
abbrev StepOutcome := Host.Outcome State Fault Refusal

/-! ## The register map -/

/-- The byte offset of a register from BASE (R30). -/
def Reg.offset : Reg → Nat
  | .id => 0x00
  | .cmd => 0x08
  | .status => 0x10
  | .n => 0x18
  | .a => 0x20
  | .b => 0x28
  | .e => 0x30
  | .ninv => 0x38
  | .one => 0x40
  | .resLo => 0x48
  | .resHi => 0x50
  | .irqEn => 0x58
  | .irqStat => 0x60

/-- The 13 registers in the order of the map (R30). -/
def allRegs : List Reg :=
  [.id, .cmd, .status, .n, .a, .b, .e, .ninv, .one, .resLo, .resHi, .irqEn, .irqStat]

/-- The register an offset hits, if it is one of the 13 offsets (R82). -/
def regAt (off : Nat) : Option Reg := allRegs.find? (fun r => r.offset == off)

/-- The read-only registers: a host write gets SLVERR (R30, R86). -/
def Reg.readOnly : Reg → Bool
  | .id | .ninv | .one | .resLo | .resHi => true
  | .cmd | .status | .n | .a | .b | .e | .irqEn | .irqStat => false

/-- The constant of the ID register: VENDOR "SMCP", SRCREV 7, MAPREV 1 (R33, D8). -/
def idValue : Word := 0x534D_4350_0007_0001

/-- `x[R]`: the value a read of a register returns, reserved fields as 0 (R13, R30, R82). -/
def readReg (r : Reg) (s : State) : Word :=
  match r with
  | .id => idValue
  | .cmd => s.cmd
  | .status => statusWord s
  | .n => s.regN
  | .a => s.regA
  | .b => s.regB
  | .e => s.regE
  | .ninv => s.ninv
  | .one => s.one
  | .resLo => s.resLo
  | .resHi => s.resHi
  | .irqEn => irqEnWord s
  | .irqStat => irqStatWord s

/-! ## Updates -/

/-- A write to CMD, N, A, B or E while BUSY = 1 is dropped: only WERR is set (R146). -/
def State.dropWrite (s : State) : State := { s with werr := true }

/-- WERR is cleared by writing 1 to STATUS bit 4 (R35). -/
def State.clearWerr (s : State) : State := { s with werr := false }

/-- A write to N stores the value and clears CTX_VALID, even when the value is the old one; NINV and ONE stay (R37). -/
def State.storeN (s : State) (v : Word) : State := { s with regN := v, ctxValid := false }

/-- A write to A changes only A (R38). -/
def State.storeA (s : State) (v : Word) : State := { s with regA := v }

/-- A write to B changes only B (R38). -/
def State.storeB (s : State) (v : Word) : State := { s with regB := v }

/-- A write to E changes only E (R38). -/
def State.storeE (s : State) (v : Word) : State := { s with regE := v }

/-- IRQ_EN.DONE_IE (R44). -/
def State.setDoneIe (s : State) (f : Bool) : State := { s with doneIe := f }

/-- IRQ_STAT.DONE_IP is cleared by writing 1 to its bit 0 (R45). -/
def State.clearDoneIp (s : State) : State := { s with doneIp := false }

/-- The answer of the bus port at this edge (R81). -/
def State.answer (s : State) (r : Reply) : State := { s with reply := some r }

/-- The acceptance of a CMD write: CMD keeps all 64 bits, and DONE, ERR and ERRCODE are cleared (R140, R141). -/
def State.accept (s : State) (c : Word) : State := { s with cmd := c, done := false, error := none }

/-- The end of a command: DONE, DONE_IP, and ERR with ERRCODE as the outcome says (R144, R145). -/
def State.finish (s : State) (e : Option CmdError) : State := { s with done := true, error := e, doneIp := true }

/-- The record of a command in flight: BUSY <- 1 (R140, R48). -/
def State.setInFlight (s : State) (r : InFlight) : State := { s with inFlight := some r }

/-- No command in flight: BUSY <- 0 (R144). -/
def State.clearInFlight (s : State) : State := { s with inFlight := none }

/-- One latency of the schedule is used up (R320). -/
def State.dropLatChoice (s : State) : State := { s with latChoices := s.latChoices.tail }

/-- The register writes of an outcome (R42, R144, R228): RES_LO and RES_HI, or NINV, ONE and CTX_VALID. -/
def State.applyWrites (s : State) (w : Writes) : State :=
  match w with
  | .result lo hi => { s with resLo := lo, resHi := hi }
  | .context i o => { s with ninv := i, one := o, ctxValid := true }

/-! ## The command lifecycle -/

/-- The cycles from this launch to its completion: the schedule's choice where there is one, else LAT(op, operands)
(R9, R320). At least 1 either way. -/
def State.latency (s : State) (i : Instr) : Nat :=
  match s.latChoices with
  | [] => Config.lat (opcode i) (operandsOf i s)
  | k :: _ => k + 1

/-- A command that ends with an error, in its launch step (R145, R262, R268): CMD keeps the failing word, ERR, ERRCODE,
DONE and DONE_IP record the error, and nothing else changes. Every error of every command goes through here. -/
def State.endWithError (s : State) (c : Word) (e : CmdError) : State := (s.accept c).finish (some e)

/-- The launch of a non-immediate command whose checks have passed (R140): BUSY <- 1 with the record of R48, the outcome
computed now from the registers as they are (R142, R143). -/
def State.launch (s : State) (i : Instr) (w : Writes) : State :=
  ((s.accept (encode i)).setInFlight { op := opcode i, outcome := w, remaining := s.latency i }).dropLatChoice

/-- A host write of the command word of `i` to CMD, with the outcome of the command's checks and computation
(R140, R142, R145, R146): dropped while BUSY = 1, else an error at once or a launch. -/
def issue (i : Instr) (outcome : Except CmdError Writes) (s : State) : StepOutcome :=
  if s.busy then .next s.dropWrite
  else
    match outcome with
    | .error e => .next (s.endWithError (encode i) e)
    | .ok w => .next (s.launch i w)

/-- A host write to CMD of a word that completes at once without an error and without a register write (R145). -/
def issueImmediate (i : Instr) (s : State) : StepOutcome :=
  if s.busy then .next s.dropWrite else .next ((s.accept (encode i)).finish none)

/-- A host write of an illegal word to CMD: EILLEGAL at once, or dropped while BUSY = 1 (R113, R142, R146). -/
def issueIllegal (c : Word) (s : State) : StepOutcome :=
  if s.busy then .next s.dropWrite else .next (s.endWithError c .eillegal)

/-- The completion of the command in flight, all outputs in one step (R144). -/
def State.complete (s : State) (r : InFlight) : State := ((s.applyWrites r.outcome).clearInFlight).finish none

/-- The engine's share of one clock edge (R144): one cycle of the command in flight passes, and the command completes
when `remaining` reaches 0. Nothing happens while BUSY = 0 (R139). -/
def State.engineTick (s : State) : State :=
  match s.inFlight with
  | none => s
  | some r =>
    if r.remaining ≤ 1 then s.complete r else s.setInFlight { r with remaining := r.remaining - 1 }

/-- A rising edge with `rst` = 1: every piece of the block's state takes its reset value, and a command in flight is
discarded (R50, R300, R301). What the surroundings will present stays. -/
def State.resetEdge (s : State) : State :=
  { State.reset with inputs := s.inputs, latChoices := s.latChoices }

end Sys2Proof.Machine
end

