-- ==== Sys2Proof/Machine/Control.lean ====
section
/-! DEFINITION. The control command NOP (40_control.md R150). The block has no other control command (R151, R152). -/

namespace Sys2Proof.Machine

/-- NOP: completes in the launch step with DONE and DONE_IP set; no data register changes (R145, R150). -/
def execNop (s : State) : StepOutcome := issueImmediate .nop s

end Sys2Proof.Machine
end

