-- ==== Sys2Proof/Machine/Montgomery.lean ====
section
/-! DEFINITION. The 64-bit Montgomery engine (42_montgomery.md): one function per function rule, on naturals, and one
meaning per command rule. The radix is 2^64 throughout. The functions are defined for every 64-bit input (R190). -/

namespace Sys2Proof.Machine

/-! ## Functions -/

/-- The low and the high half of the exact 128-bit product (R191). -/
def wmul (a b : Nat) : Nat × Nat := (lo64 (a * b), hi64 (a * b))

/-- The start value of Hensel lifting, `(3n) xor 2` (R196). -/
def montInvStart (n : Nat) : Nat := (3 * n) % radix ^^^ 2

/-- One Hensel iteration, `est <- (2 - est*n)*est`, every step wrapped (R196). -/
def montInvStep (n est : Nat) : Nat := (wrap64 (2 - (est : Int) * n) * est) % radix

/-- Hensel lifting with four iterations (R196). -/
def montInv (n : Nat) : Nat :=
  montInvStep n (montInvStep n (montInvStep n (montInvStep n (montInvStart n))))

/-- `t`, the high half of `m * n` with `m = lo * n_inv mod 2^64` (R200). -/
def montReduceT (lo n ninv : Nat) : Nat := hi64 (((lo * ninv) % radix) * n)

/-- Montgomery reduction of the 128-bit value `hi * 2^64 + lo` (R200). -/
def montReduce (lo hi n ninv : Nat) : Nat :=
  let t := montReduceT lo n ninv
  if t ≤ hi then hi - t else wrap64 ((hi : Int) - t + n)

/-- Montgomery multiplication (R205). -/
def montMul (a b n ninv : Nat) : Nat := montReduce (wmul a b).1 (wmul a b).2 n ninv

/-- Conversion into Montgomery form (R210); used only with n > 0. -/
def toMont (x n : Nat) : Nat := ((x % n) * radix) % n

/-- Conversion out of Montgomery form: the reduction of `0 * 2^64 + x` (R214). -/
def fromMont (x n ninv : Nat) : Nat := montReduce x 0 n ninv

/-- Montgomery one, the formula itself (R220, C1); used only with n > 0. -/
def montOne (n : Nat) : Nat := ((radix - 1) % n) + 1

/-- The loop of `mont_pow` (R224): accumulator `r`, base `b`, remaining exponent `k`, at most `fuel` iterations. -/
def montPowLoop (n ninv : Nat) : Nat → Nat → Nat → Nat → Nat
  | 0, r, _, _ => r
  | fuel + 1, r, b, k =>
    if k = 0 then r
    else montPowLoop n ninv fuel (if k % 2 = 1 then montMul r b n ninv else r) (montMul b b n ninv) (k / 2)

/-- Right-to-left square-and-multiply in Montgomery form; 64 iterations exhaust a 64-bit exponent (R224, R15). -/
def montPow (base e n ninv one : Nat) : Nat := montPowLoop n ninv 64 one base e

/-! ## Outcomes: the checks of R263 and the register writes, read at the launch step (R142) -/

/-- The writes of a command with one 64-bit result: RES_LO, and RES_HI <- 0 (R42, R115). -/
def resultOf (v : Nat) : Writes := .result (toWord v) 0

/-- WMUL (R192): no check. -/
def wmulOutcome (s : State) : Except CmdError Writes :=
  .ok (.result (toWord (wmul (full s.regA) (full s.regB)).1) (toWord (wmul (full s.regA) (full s.regB)).2))

/-- MONT_INV (R197): no check, even N included. -/
def montInvOutcome (s : State) : Except CmdError Writes := .ok (resultOf (montInv (full s.regN)))

/-- MONT_ONE (R221): EDIVZERO when N = 0. -/
def montOneOutcome (s : State) : Except CmdError Writes :=
  if full s.regN = 0 then .error .edivzero else .ok (resultOf (montOne (full s.regN)))

/-- MONT_CTX (R228): EDOMAIN when N is even, 0 included. -/
def montCtxOutcome (s : State) : Except CmdError Writes :=
  if full s.regN % 2 = 0 then .error .edomain
  else .ok (.context (toWord (montInv (full s.regN))) (toWord (montOne (full s.regN))))

/-- TO_MONT (R211): EDIVZERO when N = 0; the context is not read. -/
def toMontOutcome (s : State) : Except CmdError Writes :=
  if full s.regN = 0 then .error .edivzero else .ok (resultOf (toMont (full s.regA) (full s.regN)))

/-- FROM_MONT (R215): ENOCTX when CTX_VALID = 0. -/
def fromMontOutcome (s : State) : Except CmdError Writes :=
  if s.ctxValid then .ok (resultOf (fromMont (full s.regA) (full s.regN) (full s.ninv))) else .error .enoctx

/-- MONT_REDUCE (R201): ENOCTX when CTX_VALID = 0; lo = A, hi = B. -/
def montReduceOutcome (s : State) : Except CmdError Writes :=
  if s.ctxValid then .ok (resultOf (montReduce (full s.regA) (full s.regB) (full s.regN) (full s.ninv)))
  else .error .enoctx

/-- MONT_MUL (R206): ENOCTX when CTX_VALID = 0. -/
def montMulOutcome (s : State) : Except CmdError Writes :=
  if s.ctxValid then .ok (resultOf (montMul (full s.regA) (full s.regB) (full s.regN) (full s.ninv)))
  else .error .enoctx

/-- MONT_POW (R225): ENOCTX when CTX_VALID = 0; the exponent is E, B is not read. -/
def montPowOutcome (s : State) : Except CmdError Writes :=
  if s.ctxValid then
    .ok (resultOf (montPow (full s.regA) (full s.regE) (full s.regN) (full s.ninv) (full s.one)))
  else .error .enoctx

/-! ## Meanings -/

/-- WMUL (R192). -/
def execWmul (s : State) : StepOutcome := issue .wmul (wmulOutcome s) s

/-- MONT_INV (R197). -/
def execMontInv (s : State) : StepOutcome := issue .montInv (montInvOutcome s) s

/-- MONT_ONE (R221). -/
def execMontOne (s : State) : StepOutcome := issue .montOne (montOneOutcome s) s

/-- MONT_CTX (R228). -/
def execMontCtx (s : State) : StepOutcome := issue .montCtx (montCtxOutcome s) s

/-- TO_MONT (R211). -/
def execToMont (s : State) : StepOutcome := issue .toMont (toMontOutcome s) s

/-- FROM_MONT (R215). -/
def execFromMont (s : State) : StepOutcome := issue .fromMont (fromMontOutcome s) s

/-- MONT_REDUCE (R201). -/
def execMontReduce (s : State) : StepOutcome := issue .montReduce (montReduceOutcome s) s

/-- MONT_MUL (R206). -/
def execMontMul (s : State) : StepOutcome := issue .montMul (montMulOutcome s) s

/-- MONT_POW (R225). -/
def execMontPow (s : State) : StepOutcome := issue .montPow (montPowOutcome s) s

end Sys2Proof.Machine
end

