-- ==== Sys2Proof/Machine/ModArith32.lean ====
section
/-! DEFINITION. The 32-bit modular arithmetic and SPRP32 (41_modarith32.md). Every intermediate value is exact (R160). -/

namespace Sys2Proof.Machine

/-- `(a * b) mod m` (R161); used only with m > 0. -/
def mulmod32 (a b m : Nat) : Nat := (a * b) % m

/-- The loop of `powmod32` (R165): accumulator `r`, base, remaining exponent `e`, at most `fuel` iterations. -/
def powmod32Loop (m : Nat) : Nat → Nat → Nat → Nat → Nat
  | 0, r, _, _ => r
  | fuel + 1, r, base, e =>
    if e = 0 then r
    else powmod32Loop m fuel (if e % 2 = 1 then mulmod32 r base m else r) (mulmod32 base base m) (e / 2)

/-- Right-to-left square-and-multiply from `1 mod m`; 32 iterations exhaust a 32-bit exponent (R165, R15). -/
def powmod32 (a b m : Nat) : Nat := powmod32Loop m 32 (1 % m) a b

/-- The squaring loop of `sprp32` (R170): at most the given number of squarings of `x`. -/
def sprp32Loop (n : Nat) : Nat → Nat → Nat
  | 0, _ => 0
  | count + 1, x =>
    let y := mulmod32 x x n
    if y = n - 1 then 1 else if y = 1 then 0 else sprp32Loop n count y

/-- One Miller-Rabin round: 1 for pass, 0 for fail (R43, R170). -/
def sprp32 (n a : Nat) : Nat :=
  let s := ctz (n - 1)
  let d := (n - 1) / 2 ^ s
  if a % n = 0 then 1
  else
    let x := powmod32 a d n
    if x = 1 ∨ x = n - 1 then 1 else sprp32Loop n (s - 1) x

/-- MULMOD32 (R162): EDIVZERO when N[31:0] = 0. -/
def mulmod32Outcome (s : State) : Except CmdError Writes :=
  if low32 s.regN = 0 then .error .edivzero
  else .ok (resultOf (mulmod32 (low32 s.regA) (low32 s.regB) (low32 s.regN)))

/-- POWMOD32 (R166): EDIVZERO when N[31:0] = 0; the exponent is E, B is not read. -/
def powmod32Outcome (s : State) : Except CmdError Writes :=
  if low32 s.regN = 0 then .error .edivzero
  else .ok (resultOf (powmod32 (low32 s.regA) (low32 s.regE) (low32 s.regN)))

/-- SPRP32 (R171): EDOMAIN when N[31:0] is even or below 3. -/
def sprp32Outcome (s : State) : Except CmdError Writes :=
  if low32 s.regN % 2 = 0 ∨ low32 s.regN < 3 then .error .edomain
  else .ok (resultOf (sprp32 (low32 s.regN) (low32 s.regA)))

/-- MULMOD32 (R162). -/
def execMulmod32 (s : State) : StepOutcome := issue .mulmod32 (mulmod32Outcome s) s

/-- POWMOD32 (R166). -/
def execPowmod32 (s : State) : StepOutcome := issue .powmod32 (powmod32Outcome s) s

/-- SPRP32 (R171). -/
def execSprp32 (s : State) : StepOutcome := issue .sprp32 (sprp32Outcome s) s

end Sys2Proof.Machine
end

