-- ==== Sys2Proof/Machine/Sprp64.lean ====
section
/-! DEFINITION. The 64-bit Miller-Rabin witness test in Montgomery form (43_sprp64.md). -/

namespace Sys2Proof.Machine

/-- The Montgomery form of n - 1, `n - one`, with n added once if that underflows (R241). -/
def negOne (n one : Nat) : Nat :=
  let v := wrap64 ((n : Int) - one)
  if n < one then (v + n) % radix else v

/-- The squaring loop of `sprp64` (R244): at most the given number of squarings of `x`. -/
def sprp64Loop (n ninv one m1 : Nat) : Nat → Nat → Nat
  | 0, _ => 0
  | count + 1, x =>
    let y := montMul x x n ninv
    if y = m1 then 1 else if y = one then 0 else sprp64Loop n ninv one m1 count y

/-- One Miller-Rabin round in Montgomery form: 1 for pass, 0 for fail (R43, R244). -/
def sprp64 (n a ninv one : Nat) : Nat :=
  let s := ctz (n - 1)
  let d := (n - 1) / 2 ^ s
  let am := toMont a n
  if am = 0 then 1
  else
    let x := montPow am d n ninv one
    let m1 := negOne n one
    if x = one ∨ x = m1 then 1 else sprp64Loop n ninv one m1 (s - 1) x

/-- SPRP64 (R245, R263): ENOCTX when CTX_VALID = 0, then EDOMAIN when N < 3. -/
def sprp64Outcome (s : State) : Except CmdError Writes :=
  if s.ctxValid then
    if full s.regN < 3 then .error .edomain
    else .ok (resultOf (sprp64 (full s.regN) (full s.regA) (full s.ninv) (full s.one)))
  else .error .enoctx

/-- SPRP64 (R245). -/
def execSprp64 (s : State) : StepOutcome := issue .sprp64 (sprp64Outcome s) s

end Sys2Proof.Machine
end

