-- ==== Sys2Proof/Machine/Dispatch.lean ====
section
/-! DEFINITION. The meaning of a command: a host write of its command word to CMD (40_control.md R140 to R147). -/

namespace Sys2Proof.Machine

def exec (i : Instr) (s : State) : Host.Outcome State Fault Refusal :=
  match i with
  | .nop => Sys2Proof.Machine.execNop s
  | .wmul => Sys2Proof.Machine.execWmul s
  | .montInv => Sys2Proof.Machine.execMontInv s
  | .montOne => Sys2Proof.Machine.execMontOne s
  | .montCtx => Sys2Proof.Machine.execMontCtx s
  | .toMont => Sys2Proof.Machine.execToMont s
  | .fromMont => Sys2Proof.Machine.execFromMont s
  | .montReduce => Sys2Proof.Machine.execMontReduce s
  | .montMul => Sys2Proof.Machine.execMontMul s
  | .montPow => Sys2Proof.Machine.execMontPow s
  | .sprp64 => Sys2Proof.Machine.execSprp64 s
  | .mulmod32 => Sys2Proof.Machine.execMulmod32 s
  | .powmod32 => Sys2Proof.Machine.execPowmod32 s
  | .sprp32 => Sys2Proof.Machine.execSprp32 s

end Sys2Proof.Machine
end

