-- ==== Sys2Proof/Machine/Bus.lean ====
section
/-! DEFINITION. The bus target port (20_memory.md R80 to R90): which transactions reach which register, what they
answer, and what they do. Every row of the response table R87 is one branch here. -/

namespace Sys2Proof.Machine

/-- `MemRead(addr, size)` as a transaction (R82): the platform's address is taken to its distance from BASE. -/
def memRead (addr size : Nat) : Req :=
  { kind := .read, off := (addr : Int) - Config.base, size := size, wdata := 0 }

/-- `MemWrite(addr, size, v)` as a transaction (R82). -/
def memWrite (addr size : Nat) (v : Word) : Req :=
  { kind := .write, off := (addr : Int) - Config.base, size := size, wdata := v }

/-- A 64-bit read of a register: `MemRead(BASE + off(r), 8)` (R117). -/
def readReq (r : Reg) : Req := { kind := .read, off := r.offset, size := 8, wdata := 0 }

/-- A 64-bit write of a register: `MemWrite(BASE + off(r), 8, v)` (R117). -/
def writeReq (r : Reg) (v : Word) : Req := { kind := .write, off := r.offset, size := 8, wdata := v }

/-- The offset of a mapped transaction, 0 <= off < 0x1000 (R82); none outside the window (R85). -/
def mappedOffset (q : Req) : Option Nat :=
  match q.off with
  | .ofNat off => if off < 0x1000 then some off else none
  | .negSucc _ => none

/-- The only supported form: size 8 and an offset that is a multiple of 8 (R83). -/
def alignedAccess (q : Req) (off : Nat) : Bool := q.size == 8 && off % 8 == 0

/-- The answer to a refused transaction: rdata = 0 for a read (R83, R85, R87). -/
def errorReply (resp : Resp) (k : AccessKind) : Reply :=
  match k with
  | .read => { resp := resp, rdata := some 0 }
  | .write => { resp := resp, rdata := none }

/-- The answer to an accepted write (R87). -/
def okWrite : Reply := { resp := .okay, rdata := none }

/-- The answer to a read (R82, R87). -/
def okRead (v : Word) : Reply := { resp := .okay, rdata := some v }

/-- Byte lane `k` of the read data (R84). DESIGN CHOICE (log entry 12; safe): the lanes of the answer to a write have no
value, since R81 gives `rdata` to reads only and the spec states nothing of the lanes there. -/
def Reply.lane (r : Reply) (k : Nat) : Option Byte := r.rdata.map (fun v => byteLane v k)

/-- A write of an operand register: dropped with WERR while BUSY = 1, stored else (R36 to R38, R146). -/
def writeOperand (store : State → State) (s : State) : State := if s.busy then s.dropWrite else store s

/-- A write to CMD (R140, R142, R146): a legal word has the meaning of its command, any other ends with EILLEGAL. -/
def writeCmd (c : Word) (s : State) : StepOutcome :=
  match decode? c with
  | some i => exec i s
  | none => issueIllegal c s

/-- A write to STATUS: clears WERR if bit 4 is 1; also while BUSY = 1 (R35). -/
def writeStatus (v : Word) (s : State) : State := if bitOf v 4 then s.clearWerr else s

/-- A write to IRQ_EN: bit 0 is DONE_IE, the others are ignored; also while BUSY = 1 (R44, R146). -/
def writeIrqEn (v : Word) (s : State) : State := s.setDoneIe (bitOf v 0)

/-- A write to IRQ_STAT: clears DONE_IP if bit 0 is 1; also while BUSY = 1 (R45, R146). -/
def writeIrqStat (v : Word) (s : State) : State := if bitOf v 0 then s.clearDoneIp else s

/-- A 64-bit aligned write that hits a register (R86, R87). -/
def writeReg (r : Reg) (v : Word) (s : State) : StepOutcome :=
  match r with
  | .id | .ninv | .one | .resLo | .resHi => .next (s.answer (errorReply .slverr .write))
  | .cmd => writeCmd v (s.answer okWrite)
  | .status => .next (writeStatus v (s.answer okWrite))
  | .n => .next (writeOperand (fun t => t.storeN v) (s.answer okWrite))
  | .a => .next (writeOperand (fun t => t.storeA v) (s.answer okWrite))
  | .b => .next (writeOperand (fun t => t.storeB v) (s.answer okWrite))
  | .e => .next (writeOperand (fun t => t.storeE v) (s.answer okWrite))
  | .irqEn => .next (writeIrqEn v (s.answer okWrite))
  | .irqStat => .next (writeIrqStat v (s.answer okWrite))

/-- One transaction against the state before the edge's completion (R81 to R87, R266). A transaction outside the window
is not decoded: the block does nothing and answers nothing (R85). -/
def transact (q : Req) (s : State) : StepOutcome :=
  match mappedOffset q with
  | none => .next s
  | some off =>
    if alignedAccess q off then
      match regAt off with
      | none => .next (s.answer (errorReply .decerr q.kind))
      | some r =>
        match q.kind with
        | .read => .next (s.answer (okRead (readReg r s)))
        | .write => writeReg r q.wdata s
    else .next (s.answer (errorReply .slverr q.kind))

/-- The host's share of one clock edge: its transaction, or nothing (R139, R266). -/
def hostPhase (q : Option Req) (s : State) : StepOutcome :=
  match q with
  | none => .next s
  | some q => transact q s

/-- The engine's share of one clock edge, after the host's (R266): the command that was in flight before the edge
counts one cycle and completes at 0 (R144). A command launched at this very edge does not count yet: LAT >= 1 (R139). -/
def enginePhase (before after : State) : State := if before.busy then after.engineTick else after

/-- The pins of the coming edge; an idle bus with `rst` low where nothing is presented (log entry 2). -/
def nextCycle (s : State) : Cycle :=
  match s.inputs with
  | [] => { rst := false, req := none }
  | c :: _ => c

/-- The state an edge starts from: its pins are taken, and the bus port has not answered yet. -/
def State.takeCycle (s : State) : State := { s with inputs := s.inputs.tail, reply := none }

/-- An edge with `rst` = 0: the host's transaction first, then the engine (R266). -/
def runEdge (q : Option Req) (s : State) : StepOutcome :=
  match hostPhase q s with
  | .next t => .next (enginePhase s t)
  | .fault r => .fault r
  | .refused r => .refused r

/-- One rising edge of `clk` with the given pins (R80, R266, R300). A transaction presented while `rst` = 1 is refused:
the spec says nothing of a run that contains one (R286, R300). -/
def clockEdge (c : Cycle) (s : State) : StepOutcome :=
  if c.rst then
    match c.req with
    | none => .next s.resetEdge
    | some _ => .refused .transactionDuringReset
  else runEdge c.req s

/-- The host presents a transaction at the very next edge, before all that it will present later. -/
def State.present (s : State) (q : Req) : State := { s with inputs := { rst := false, req := some q } :: s.inputs }

end Sys2Proof.Machine
end

