-- ==== Sys2Proof/Machine/Step.lean ====
section
/-! DEFINITION. One step of the block: one rising edge of `clk` (20_memory.md R80). -/

namespace Sys2Proof.Machine

/-- One rising edge of `clk`, with the pins that `inputs` holds for it. -/
def step (s : State) : Host.Outcome State Fault Refusal := clockEdge (nextCycle s) s.takeCycle

/-- The state in which the host writes the command word `w` (its low `nbits` bits) to CMD at the very next edge. The
block fetches nothing (R31): a command comes to run only by such a write. -/
def State.withFetchWord (s : State) (nbits w : Nat) : State :=
  s.present (writeReq .cmd (BitVec.ofNat 64 (w % 2 ^ nbits)))

end Sys2Proof.Machine
end

