-- ==== Sys2Proof/Machine/Script.lean ====
section
/-! DEFINITION. The host script notation (30_encoding.md R117 to R119): the encoding of each statement as a bus
transaction, the expansion of the pseudo-instructions, and a host that plays a script against the block. The control
flow of a script (the loop of `P`, the wait of `WAIT`) is the host's, not the block's (R118). -/

namespace Sys2Proof.Machine

/-- A statement: one bus transaction (R117). -/
inductive Stmt where
  /-- `W <reg>, <imm>` -/
  | w (r : Reg) (imm : Word)
  /-- `R <reg>` -/
  | r (r : Reg)
  /-- `C <mnemonic>` -/
  | c (i : Instr)
  deriving DecidableEq, Repr

/-- A line of a script: a statement or a pseudo-instruction (R118, R119). -/
inductive ScriptLine where
  | stmt (t : Stmt)
  /-- `P`: read STATUS until BUSY = 0 -/
  | poll
  /-- `RUN <mnemonic>` -/
  | run (i : Instr)
  /-- `CLRWERR` -/
  | clrwerr
  /-- `ACK` -/
  | ack
  /-- `CTX <imm>` -/
  | ctx (imm : Word)
  /-- `WAIT`: wait for the interrupt -/
  | wait
  deriving DecidableEq, Repr

/-- The bus transaction of a statement (R117). -/
def stmtReq (t : Stmt) : Req :=
  match t with
  | .w r imm => writeReq r imm
  | .r r => readReq r
  | .c i => writeReq .cmd (encode i)

/-- The expansion of a line into statements, polls and waits (R119). -/
def expandLine (l : ScriptLine) : List ScriptLine :=
  match l with
  | .stmt t => [.stmt t]
  | .poll => [.poll]
  | .run i => [.stmt (.c i), .poll]
  | .clrwerr => [.stmt (.w .status 0x10)]
  | .ack => [.stmt (.w .irqStat 0x1)]
  | .ctx imm => [.stmt (.w .n imm), .stmt (.c .montCtx), .poll]
  | .wait => [.wait]

/-- What playing a script gives: the state and the answers in order, or why it stopped. -/
inductive Played where
  | ended (s : State) (answers : List (Option Reply))
  | stopped (r : Refusal)
  | outOfPolls
  deriving Repr

/-- The host presents one transaction at the next edge and takes the answer. -/
def playStmt (t : Stmt) (s : State) : StepOutcome := step (s.present (stmtReq t))

/-- Whether an answer is a STATUS value with BUSY = 1 (R35). -/
def answerBusy (a : Option Reply) : Bool :=
  match a with
  | some { rdata := some v, .. } => bitOf v 0
  | _ => false

/-- `P`: read STATUS at most `polls` times, until the value read has BUSY = 0 (R119). -/
def playPoll (polls : Nat) (s : State) : Played :=
  match polls with
  | 0 => .outOfPolls
  | polls + 1 =>
    match playStmt (.r .status) s with
    | .next t => if answerBusy t.reply then playPoll polls t else .ended t [t.reply]
    | .refused r => .stopped r

/-- `WAIT`: let at most `edges` edges pass with nothing presented, until `irq` is 1 (R118). -/
def playWait (edges : Nat) (s : State) : Played :=
  if s.irq then .ended s []
  else
    match edges with
    | 0 => .outOfPolls
    | edges + 1 =>
      match step s with
      | .next t => playWait edges t
      | .refused r => .stopped r

/-- One expanded line. -/
def playLine (polls : Nat) (l : ScriptLine) (s : State) : Played :=
  match l with
  | .stmt t =>
    match playStmt t s with
    | .next t => .ended t [t.reply]
    | .refused r => .stopped r
  | .poll => playPoll polls s
  | .wait => playWait polls s
  | .run _ | .clrwerr | .ack | .ctx _ => .ended s []

/-- The expanded lines in order. -/
def playLines (polls : Nat) (ls : List ScriptLine) (s : State) (answers : List (Option Reply)) : Played :=
  match ls with
  | [] => .ended s answers
  | l :: rest =>
    match playLine polls l s with
    | .ended t more => playLines polls rest t (answers ++ more)
    | .stopped r => .stopped r
    | .outOfPolls => .outOfPolls

/-- A host plays a script from a state, polling at most `polls` times in each `P` (R117 to R119). -/
def playScript (polls : Nat) (script : List ScriptLine) (s : State) : Played :=
  playLines polls (script.flatMap expandLine) s []

end Sys2Proof.Machine
end

