-- ==== Sys2Proof/Safety.lean ====
section
/-! DEFINITION. What counts as the end of a command, the end of a run and a clean run (40_control.md R148), and the
invariants of the block, in the terms the statements use. -/

namespace Sys2Proof.Machine

/-- A command has ended when, after its accepted CMD write, STATUS shows BUSY = 0 and DONE = 1 (R148). -/
def State.ended (s : State) : Bool := !s.busy && s.done

/-- A run is over when every transaction has been processed and BUSY = 0 (R148). -/
def State.runOver (s : State) : Bool := s.inputs.isEmpty && !s.busy

/-- The next edge carries an aligned 64-bit write to CMD that is accepted, `rst` being low (R140). -/
def State.launchesNext (s : State) : Bool :=
  match nextCycle s with
  | { rst := false, req := some q } =>
    q.kind == .write && q.size == 8 && q.off == (Reg.offset .cmd : Int) && !s.busy
  | _ => false

/-- No bus error was answered at the last edge (R148). -/
def State.noBusError (s : State) : Bool :=
  match s.reply with
  | none => true
  | some r => r.resp == .okay

/-- An edge of a run that leads from `s` to `t` is clean (R148): no bus error; a command the run has launched, now or
earlier (`opened`), is still in flight or has ended with ERR = 0, so a reset edge that discards it (R301) is not clean;
and no reset edge wipes a WERR that stands at 1 (log entry 18). -/
def cleanEdge (opened : Bool) (s t : State) : Bool :=
  t.noBusError && (!(opened || s.launchesNext) || t.busy || (t.ended && !t.err)) && !((nextCycle s).rst && s.werr)

/-- Whether a command the run has launched has not ended yet, after an edge that leads from `s` to `t` (R148). -/
def leftOpen (opened : Bool) (s t : State) : Bool := (opened || s.launchesNext) && !t.ended

/-- A run of `k` edges from `s` is over and clean (R148), where `opened` says whether a command the run launched before
`s` has not ended yet: every edge is clean, and at the end every statement has been processed, BUSY = 0, WERR = 0 and
every command the run launched has ended. -/
def cleanFrom : Nat → Bool → State → Bool
  | 0, opened, s => s.runOver && !s.werr && !opened
  | k + 1, opened, s =>
    match step s with
    | .next t => cleanEdge opened s t && cleanFrom k (leftOpen opened s t) t
    | .refused _ => false

/-- A run of `k` edges from `s`, which has launched nothing yet, is over and clean (R148). -/
def cleanRun (k : Nat) (s : State) : Bool := cleanFrom k false s

/-- `k` edges, stopping at the first refusal. -/
def runEdges : Nat → State → StepOutcome
  | 0, s => .next s
  | k + 1, s =>
    match step s with
    | .next t => runEdges k t
    | .fault r => .fault r
    | .refused r => .refused r

/-- The command `i`, written to CMD in state `s`, ends at once with the error `e`, precisely: only CMD, DONE, ERR with
ERRCODE, and DONE_IP change (R145, R262, R268). -/
def EndsWithError (i : Instr) (s : State) (e : CmdError) : Prop :=
  exec i s = .next { s with cmd := encode i, done := true, error := some e, doneIp := true }

/-- The state a launch leads to (R140): BUSY = 1 with the record of R48, DONE, ERR and ERRCODE cleared, and CMD the
command word; nothing else changes (R141), but that a latency the schedule had chosen is used up. -/
def launched (i : Instr) (s : State) (w : Writes) : State :=
  { s with
    cmd := encode i
    done := false
    error := none
    inFlight := some { op := opcode i, outcome := w, remaining := s.latency i }
    latChoices := s.latChoices.tail }

/-- The state `s` with a command's outcome in its registers and its end in STATUS and IRQ_STAT (R144). -/
def completed (i : Instr) (s : State) (w : Writes) : State :=
  { s.applyWrites w with
    cmd := encode i
    done := true
    error := none
    doneIp := true
    inFlight := none
    latChoices := s.latChoices.tail }

/-- The command `i`, written to CMD in state `s`, is launched with the outcome `w` (R140), and when the host then presents
nothing for its latency, its writes are in the registers and everything else is as before it, but for CMD, DONE, ERR with
ERRCODE, DONE_IP and the bus port's answer (R144). -/
def CompletesWith (i : Instr) (s : State) (w : Writes) : Prop :=
  exec i s = .next (launched i s w) ∧
    runEdges (s.latency i) { launched i s w with inputs := [] } =
      .next { completed i s w with inputs := [], reply := none }

/-- The same state with no command in flight: the registers a command in flight was launched with (R48, R146). -/
def State.idle (s : State) : State := { s with inFlight := none }

/-- The lifecycle invariant (R35, R48, R139, R145): BUSY and DONE never stand together, an error stands only with DONE,
and a command in flight has at least one cycle left. -/
def LifecycleInv (s : State) : Prop :=
  (s.busy = true → s.done = false) ∧
    (s.err = true → s.done = true) ∧
    ∀ r, s.inFlight = some r → 1 ≤ r.remaining

/-- The record invariant (R48, R143, R146): the command in flight is the one in CMD, and its outcome is the one its
checks and computation give on the registers as they stand. -/
def RecordInv (s : State) : Prop :=
  ∀ r, s.inFlight = some r →
    ∃ i t, s.cmd = encode i ∧ r.op = opcode i ∧ exec i s.idle = .next t ∧
      ∃ r', t.inFlight = some r' ∧ r'.outcome = r.outcome

/-- The context invariant (R40): while CTX_VALID = 1, N is odd and NINV and ONE are the Montgomery context of N. -/
def ContextInv (s : State) : Prop :=
  s.ctxValid = true →
    full s.regN % 2 = 1 ∧ s.ninv = toWord (montInv (full s.regN)) ∧ s.one = toWord (montOne (full s.regN))

/-- The invariant of the block. -/
def BlockInv (s : State) : Prop := LifecycleInv s ∧ RecordInv s ∧ ContextInv s

end Sys2Proof.Machine
end

