-- ==== Sys2Proof/Certificates/Slice0/Obligations.lean ====
section
/-! DEFINITION. The statements for the provers. The first part holds what they are stated in: the arithmetic of the spec
written a second time on 64-bit words, independently of the model's functions; the strong-probable-prime property; the
check table of 60_exceptions.md R263. -/

namespace Sys2Proof.Claims

open Sys2Proof.Machine

/-- The high 64 bits of a 64 by 64 to 128 bit product (R191). -/
def hiW (x y : Word) : Word := ((x.setWidth 128 * y.setWidth 128) >>> 64).setWidth 64

/-- Hensel lifting on 64-bit words: from `(3n) XOR 2`, four times `(2 - est*n)*est`, all wrapping (R196). -/
def invW (n : Word) : Word :=
  let f := fun est : Word => (2 - est * n) * est
  f (f (f (f ((3 * n) ^^^ 2))))

/-- Montgomery reduction on 64-bit words (R200). -/
def reduceW (lo hi n ninv : Word) : Word :=
  let t := hiW (lo * ninv) n
  if t.toNat ≤ hi.toNat then hi - t else hi - t + n

/-- Montgomery multiplication on 64-bit words (R205). -/
def mulW (a b n ninv : Word) : Word := reduceW (a * b) (hiW a b) n ninv

/-- Montgomery exponentiation as one pass over the 64 bits of the exponent, least significant first (R224). -/
def powW (base e n ninv one : Word) : Word :=
  ((List.range 64).foldl
    (fun p k => (if e.getLsbD k then mulW p.1 p.2 n ninv else p.1, mulW p.2 p.2 n ninv)) (one, base)).1

/-- n is a strong probable prime to base a, or a is a multiple of n (R172): with n - 1 = d * 2^s and d odd,
a^d is 1 modulo n, or a^(d * 2^k) is -1 modulo n for some k < s. -/
def StrongProbablePrime (n a : Nat) : Prop :=
  a % n = 0 ∨ ∃ d s, n - 1 = d * 2 ^ s ∧ d % 2 = 1 ∧ (a ^ d % n = 1 ∨ ∃ k < s, a ^ (d * 2 ^ k) % n = n - 1)

/-- The first failing check of a list of checks in order (R263). -/
def firstFailing : List (Bool × CmdError) → Option CmdError
  | [] => none
  | (failing, e) :: rest => if failing then some e else firstFailing rest

/-- The checks of each command in order, the table of R263 row by row. -/
def checksOf (i : Instr) (s : State) : List (Bool × CmdError) :=
  match i with
  | .nop | .wmul | .montInv => []
  | .montOne | .toMont => [(s.regN == 0, .edivzero)]
  | .montCtx => [(s.regN.toNat % 2 == 0, .edomain)]
  | .fromMont | .montReduce | .montMul | .montPow => [(s.ctxValid == false, .enoctx)]
  | .sprp64 => [(s.ctxValid == false, .enoctx), (decide (s.regN.toNat < 3), .edomain)]
  | .mulmod32 | .powmod32 => [(s.regN.toNat % 2 ^ 32 == 0, .edivzero)]
  | .sprp32 =>
    [(s.regN.toNat % 2 ^ 32 % 2 == 0 || decide (s.regN.toNat % 2 ^ 32 < 3), .edomain)]

/-- The commands that need the context (R41). -/
def needsContext : Instr → Bool
  | .fromMont | .montReduce | .montMul | .montPow | .sprp64 => true
  | .nop | .wmul | .montInv | .montOne | .montCtx | .toMont | .mulmod32 | .powmod32 | .sprp32 => false

/-- The registers a write of the host to which is dropped while BUSY = 1 (R146). -/
def Guarded (r : Reg) : Prop := r = .cmd ∨ r = .n ∨ r = .a ∨ r = .b ∨ r = .e

/-- The coming edge carries an aligned 64-bit write of the value `v` to register `r` (R82, R83). -/
def CarriesWrite (c : Cycle) (r : Reg) (v : Word) : Prop :=
  ∃ q, c.req = some q ∧ q.kind = .write ∧ q.size = 8 ∧ q.off = (r.offset : Int) ∧ q.wdata = v

/-- The same registers, context and flag that an outcome may depend on (R143). -/
def SameOperands (s t : State) : Prop :=
  s.regN = t.regN ∧ s.regA = t.regA ∧ s.regB = t.regB ∧ s.regE = t.regE ∧ s.ninv = t.ninv ∧ s.one = t.one ∧
    s.ctxValid = t.ctxValid

/-- The registers that only a completion or a reset changes, and the operands no command changes. -/
def SameData (s t : State) : Prop :=
  SameOperands s t ∧ s.resLo = t.resLo ∧ s.resHi = t.resHi

end Sys2Proof.Claims

open Sys2Proof Sys2Proof.Machine Sys2Proof.Claims

/-! ## The command word -/

/-- R112: a value of CMD is legal exactly when [63:8] = 0 and [7:0] is one of the 14 OPCODE values; every row's mask is
all 64 bits; each legal value selects exactly one command; decoding inverts encoding; no two rows overlap. -/
def Obligations.DecodeInvertsEncode : Prop :=
  (∀ (c : Word) (i : Instr), decode c = .ok i ↔ c = encode i) ∧
    (∀ c : Word, (∃ i, decode c = .ok i) ↔
      c.toNat / 2 ^ 8 = 0 ∧ c.toNat % 2 ^ 8 ∈ [0, 1, 2, 3, 4, 5, 6, 7, 8, 9, 10, 0x10, 0x11, 0x12]) ∧
    (∀ (c : Word) (i : Instr), rowSelects c (opcodeRow i) = true ↔ c &&& 0xFFFF_FFFF_FFFF_FFFF = encode i) ∧
    ∀ (c : Word) (i j : Instr), rowSelects c (opcodeRow i) = true → rowSelects c (opcodeRow j) = true → i = j

/-- R113: the three classes of illegal CMD values, each refused by name by the decoder, every other value being legal;
and an illegal value written while BUSY = 0 ends at once with EILLEGAL, never as a NOP. -/
def Obligations.ReservedWordsEndWithEillegal : Prop :=
  (∀ c : Word, c.toNat / 2 ^ 8 ≠ 0 → decode c = .error .reservedBits) ∧
    (∀ c : Word, c.toNat / 2 ^ 8 = 0 → 0x0B ≤ c.toNat % 2 ^ 8 → c.toNat % 2 ^ 8 ≤ 0x0F →
      decode c = .error .reservedOpcode) ∧
    (∀ c : Word, c.toNat / 2 ^ 8 = 0 → 0x13 ≤ c.toNat % 2 ^ 8 → decode c = .error .reservedOpcode) ∧
    ∀ (c : Word) (e : DecodeError) (s : State), decode c = .error e → s.busy = false →
      writeCmd c s = .next { s with cmd := c, done := true, error := some .eillegal, doneIp := true }

/-- A few rows of the opcode map R111, one per family, as the words the decoder reads them from. -/
def Obligations.OpcodeWordsOfEachFamily : Prop :=
  decodeTableWord 64 0x0000_0000_0000_0000 = some .nop ∧
    decodeTableWord 64 0x0000_0000_0000_0001 = some .wmul ∧
    decodeTableWord 64 0x0000_0000_0000_0007 = some .montReduce ∧
    decodeTableWord 64 0x0000_0000_0000_000A = some .sprp64 ∧
    decodeTableWord 64 0x0000_0000_0000_0010 = some .mulmod32 ∧
    decodeTableWord 64 0x0000_0000_0000_0012 = some .sprp32

/-- R84: byte k of an 8-byte access carries bits [8k+7:8k]; the lanes give the word back, and decoding a command from
its lanes is decoding its word. -/
def Obligations.ByteLanesAreLittleEndian : Prop :=
  (∀ (v : Word) (k : Nat), k < 8 → (byteLane v k).toNat = v.toNat / 2 ^ (8 * k) % 2 ^ 8) ∧
    (∀ v : Word, ofLanes (lanes v) = v.toNat) ∧
    (∀ v : Word, decodeBytes (lanes v) = decode v) ∧
    ∀ (v : Word) (k : Nat), (okRead v).lane k = some (byteLane v k)

/-! ## Steps, reset and time -/

/-- A step runs the command written: when the coming edge carries a 64-bit write to CMD of a word that decodes to `i`,
the step is `exec i` on the state whose pins are taken and whose bus port answers OKAY; while a command is in flight the
write is dropped and the engine's share of the edge follows (R140, R146, R266). `withFetchWord` presents exactly that
(log entries 2 and 7). -/
def Obligations.StepRunsTheCommandWritten : Prop :=
  (∀ (s : State) (c : Word) (i : Instr) (rest : List Cycle),
      s.inputs = { rst := false, req := some (writeReq .cmd c) } :: rest → decode c = .ok i →
      (s.busy = false → step s = exec i { s with inputs := rest, reply := some okWrite }) ∧
        (s.busy = true →
          step s = .next { s with inputs := rest, reply := some okWrite, werr := true }.engineTick)) ∧
    ∀ (s : State) (c : Word), s.withFetchWord 64 c.toNat =
      { s with inputs := { rst := false, req := some (writeReq .cmd c) } :: s.inputs }

/-- R50: the reset values of every piece of state; and a reset edge gives them in every state, whatever command is in
flight, which is discarded without a write. The surroundings' fields (log entries 2 to 4) are not part of the claim. -/
def Obligations.ResetEdgeGivesResetValues : Prop :=
  ∀ (s : State) (rest : List Cycle),
    s.inputs = { rst := true, req := none } :: rest →
    ∃ t, step s = .next t ∧
      ∀ u, (u = t ∨ u = State.reset) →
        readReg .id u = 0x534D_4350_0007_0001 ∧ readReg .cmd u = 0 ∧ readReg .status u = 0 ∧
          readReg .n u = 0 ∧ readReg .a u = 0 ∧ readReg .b u = 0 ∧ readReg .e u = 0 ∧
          readReg .ninv u = 0 ∧ readReg .one u = 0 ∧ readReg .resLo u = 0 ∧ readReg .resHi u = 0 ∧
          readReg .irqEn u = 0 ∧ readReg .irqStat u = 0 ∧ u.inFlight = none ∧ u.irq = false ∧
          u.busy = false ∧ u.done = false ∧ u.err = false ∧ u.ctxValid = false ∧ u.werr = false ∧
          u.errCode = 0 ∧ u.doneIe = false ∧ u.doneIp = false

/-- A step is refused exactly when a transaction is presented while `rst` = 1, which the host must not do (R300, R286).
That the model refuses there is log entry 6. -/
def Obligations.OnlyTransactionsDuringResetAreRefused : Prop :=
  ∀ s : State, (∃ r, step s = .refused r) ↔ ((nextCycle s).rst = true ∧ ∃ q, (nextCycle s).req = some q)

/-- R144: an edge that brings `remaining` to 0 writes every output of the command together: the outcome's registers,
BUSY, DONE, ERR, ERRCODE and DONE_IP; any other edge only counts; without a command in flight nothing happens (R139). -/
def Obligations.CompletionWritesAllOutputsTogether : Prop :=
  ∀ s : State, nextCycle s = { rst := false, req := none } →
    (s.busy = false → step s = .next { s with inputs := s.inputs.tail, reply := none }) ∧
    ∀ r : InFlight, s.inFlight = some r →
      (r.remaining = 1 →
        (∀ lo hi, r.outcome = .result lo hi →
          step s = .next { s with
            inputs := s.inputs.tail, reply := none, resLo := lo, resHi := hi,
            inFlight := none, done := true, error := none, doneIp := true }) ∧
        (∀ i o, r.outcome = .context i o →
          step s = .next { s with
            inputs := s.inputs.tail, reply := none, ninv := i, one := o, ctxValid := true,
            inFlight := none, done := true, error := none, doneIp := true })) ∧
      (2 ≤ r.remaining →
        step s = .next { s with
          inputs := s.inputs.tail, reply := none, inFlight := some { r with remaining := r.remaining - 1 } })

/-- R266, R45: in the completing edge the transaction is processed first. A read sees BUSY = 1 and the old results, a
write to CMD, N, A, B or E is dropped and sets WERR, and a write that clears DONE_IP is overridden by the completion. -/
def Obligations.TransactionPrecedesCompletion : Prop :=
  ∀ (s : State) (r : InFlight) (rest : List Cycle), s.inFlight = some r → r.remaining = 1 →
    (∀ x, s.inputs = { rst := false, req := some (readReq x) } :: rest →
      ∃ t, step s = .next t ∧ t.reply = some (okRead (readReg x s)) ∧ t.busy = false ∧ t.done = true) ∧
    (∀ x v, Guarded x → s.inputs = { rst := false, req := some (writeReq x v) } :: rest →
      ∃ t, step s = .next t ∧ t.reply = some okWrite ∧ t.werr = true ∧ readReg x t = readReg x s ∧
        t.busy = false ∧ t.done = true) ∧
    (∀ v, s.inputs = { rst := false, req := some (writeReq .irqStat v) } :: rest →
      ∃ t, step s = .next t ∧ t.doneIp = true ∧ t.busy = false)

/-- R139, R144, R310: a command in flight with k cycles left completes after exactly k edges, whatever the host does on
the bus meanwhile (no reset); until then BUSY = 1 and the result and context registers keep their values. -/
def Obligations.CommandInFlightCompletesInTime : Prop :=
  ∀ (s : State) (r : InFlight), s.inFlight = some r → 1 ≤ r.remaining →
    (∀ c ∈ s.inputs.take r.remaining, c.rst = false) →
    (∀ j < r.remaining, ∃ u, runEdges j s = .next u ∧ u.busy = true ∧ SameData s u ∧ u.done = s.done) ∧
      ∃ t, runEdges r.remaining s = .next t ∧ t.busy = false ∧ t.done = true ∧ t.error = none ∧
        t.doneIp = true ∧ s.regN = t.regN ∧ s.regA = t.regA ∧ s.regB = t.regB ∧ s.regE = t.regE ∧
        (∀ lo hi, r.outcome = .result lo hi →
          t.resLo = lo ∧ t.resHi = hi ∧ t.ninv = s.ninv ∧ t.one = s.one ∧ t.ctxValid = s.ctxValid) ∧
        (∀ i o, r.outcome = .context i o →
          t.resLo = s.resLo ∧ t.resHi = s.resHi ∧ t.ninv = i ∧ t.one = o ∧ t.ctxValid = true)

/-! ## The command lifecycle -/

/-- R141, R145, R140: after an accepted CMD write BUSY = 1 or DONE = 1; the frame of every command at its launch: WERR,
CTX_VALID, DONE_IE, every data register, the bus port and the pins are unchanged; a launched command has DONE, ERR,
ERRCODE cleared, DONE_IP unchanged and a record with its OPCODE and at least one cycle left: LAT, unless the schedule has
chosen (log entry 3). -/
def Obligations.AcceptedCommandFrame : Prop :=
  ∀ (i : Instr) (s : State), s.busy = false →
    ∃ t, exec i s = .next t ∧ t.cmd = encode i ∧ SameData s t ∧ t.werr = s.werr ∧ t.doneIe = s.doneIe ∧
      t.reply = s.reply ∧ t.inputs = s.inputs ∧
      ((t.busy = false ∧ t.done = true ∧ t.doneIp = true ∧ t.latChoices = s.latChoices) ∨
        (t.done = false ∧ t.error = none ∧ t.doneIp = s.doneIp ∧
          ∃ r, t.inFlight = some r ∧ r.op = opcode i ∧ 1 ≤ r.remaining ∧ r.remaining = s.latency i ∧
            (s.latChoices = [] → r.remaining = Config.lat (opcode i) (operandsOf i s))))

/-- R146, R42: while BUSY = 1 a write to CMD, N, A, B or E is dropped: the response is OKAY, WERR is set, and nothing else
changes, so no command is launched and CTX_VALID is not cleared; and a CMD write of any command is such a write. -/
def Obligations.WritesWhileBusyAreDropped : Prop :=
  ∀ s : State, s.busy = true →
    (∀ i, exec i s = .next { s with werr := true }) ∧
    (∀ c, writeCmd c s = .next { s with werr := true }) ∧
    ∀ r v, Guarded r → transact (writeReq r v) s = .next { s with reply := some okWrite, werr := true }

/-- R143: the outcome of a command is a function of its word and of N, A, B, E, NINV, ONE and CTX_VALID: two blocks that
agree on these, and on nothing else, give the same error or the same register writes. -/
def Obligations.OutcomeDependsOnOperandsOnly : Prop :=
  ∀ (c : Word) (s₁ s₂ t₁ t₂ : State), s₁.busy = false → s₂.busy = false → SameOperands s₁ s₂ →
    writeCmd c s₁ = .next t₁ → writeCmd c s₂ = .next t₂ →
    t₁.error = t₂.error ∧ t₁.busy = t₂.busy ∧
      t₁.inFlight.map InFlight.outcome = t₂.inFlight.map InFlight.outcome

/-- R263: the error a command reports is the first failing check of its row of the table, a command whose checks all
pass reports none, and an illegal word reports EILLEGAL before any other check. -/
def Obligations.ErrorsFollowThePriorityTable : Prop :=
  (∀ (i : Instr) (s : State), s.busy = false →
      ∃ t, exec i s = .next t ∧ t.error = firstFailing (checksOf i s)) ∧
    ∀ (c : Word) (s : State), s.busy = false → (∀ i, c ≠ encode i) →
      ∃ t, writeCmd c s = .next t ∧ t.error = some .eillegal

/-- R262: an error is precise: the state after it is the state before the launch, with only CMD, DONE, ERR, ERRCODE and
DONE_IP changed. -/
def Obligations.ErrorsArePrecise : Prop :=
  ∀ (c : Word) (s t : State), s.busy = false → writeCmd c s = .next t → t.err = true →
    t = { s with cmd := c, done := true, error := t.error, doneIp := true }

/-! ## What each command does -/

/-- R150: NOP completes at the CMD write itself with DONE and DONE_IP set; its word is 0; with a reserved bit set it is
EILLEGAL; while BUSY = 1 it is dropped. -/
def Obligations.NopCompletesAtOnce : Prop :=
  encode .nop = 0 ∧
    ∀ s : State,
      (s.busy = false →
        exec .nop s = .next { s with cmd := 0, done := true, error := none, doneIp := true }) ∧
      (s.busy = true → exec .nop s = .next { s with werr := true }) ∧
      ∀ c : Word, s.busy = false → c.toNat % 2 ^ 8 = 0 → c.toNat / 2 ^ 8 ≠ 0 →
        ∃ t, writeCmd c s = .next t ∧ t.error = some .eillegal

/-- R192: WMUL completes on every state with the exact 128-bit product of A and B in RES_HI and RES_LO. -/
def Obligations.WmulGivesTheExactProduct : Prop :=
  encode .wmul = 0x01 ∧ ∀ s : State, s.busy = false →
    ∃ lo hi : Word, CompletesWith .wmul s (.result lo hi) ∧
      hi.toNat * 2 ^ 64 + lo.toNat = s.regA.toNat * s.regB.toNat

/-- R197: MONT_INV completes on every state, even N included, with four Hensel iterations from (3N) XOR 2. -/
def Obligations.MontInvCompletesForEveryN : Prop :=
  encode .montInv = 0x02 ∧ ∀ s : State, s.busy = false → CompletesWith .montInv s (.result (invW s.regN) 0)

/-- R221: MONT_ONE gives ((2^64 - 1) mod N) + 1, or EDIVZERO when N = 0. -/
def Obligations.MontOneCompletesForNonzeroN : Prop :=
  encode .montOne = 0x03 ∧ ∀ s : State, s.busy = false →
    (s.regN ≠ 0 →
      ∃ r : Word, CompletesWith .montOne s (.result r 0) ∧ r.toNat = (2 ^ 64 - 1) % s.regN.toNat + 1) ∧
    (s.regN = 0 → EndsWithError .montOne s .edivzero)

/-- R228: MONT_CTX writes NINV, ONE and CTX_VALID for odd N, and ends with EDOMAIN for even N. -/
def Obligations.MontCtxCompletesForOddN : Prop :=
  encode .montCtx = 0x04 ∧ ∀ s : State, s.busy = false →
    (s.regN.toNat % 2 = 1 →
      ∃ o : Word, CompletesWith .montCtx s (.context (invW s.regN) o) ∧
        o.toNat = (2 ^ 64 - 1) % s.regN.toNat + 1) ∧
    (s.regN.toNat % 2 = 0 → EndsWithError .montCtx s .edomain)

/-- R211: TO_MONT gives A * 2^64 mod N for every A and every N > 0 whatever the context, or EDIVZERO when N = 0. -/
def Obligations.ToMontCompletesForNonzeroN : Prop :=
  encode .toMont = 0x05 ∧ ∀ s : State, s.busy = false →
    (s.regN ≠ 0 →
      ∃ r : Word, CompletesWith .toMont s (.result r 0) ∧ r.toNat = s.regA.toNat * 2 ^ 64 % s.regN.toNat) ∧
    (s.regN = 0 → EndsWithError .toMont s .edivzero)

/-- R215: FROM_MONT gives the Montgomery reduction of A, or ENOCTX when CTX_VALID = 0. -/
def Obligations.FromMontCompletesWithContext : Prop :=
  encode .fromMont = 0x06 ∧ ∀ s : State, s.busy = false →
    (s.ctxValid = true → CompletesWith .fromMont s (.result (reduceW s.regA 0 s.regN s.ninv) 0)) ∧
    (s.ctxValid = false → EndsWithError .fromMont s .enoctx)

/-- R201: MONT_REDUCE gives the Montgomery reduction of B || A, or ENOCTX when CTX_VALID = 0. -/
def Obligations.MontReduceCompletesWithContext : Prop :=
  encode .montReduce = 0x07 ∧ ∀ s : State, s.busy = false →
    (s.ctxValid = true → CompletesWith .montReduce s (.result (reduceW s.regA s.regB s.regN s.ninv) 0)) ∧
    (s.ctxValid = false → EndsWithError .montReduce s .enoctx)

/-- R206: MONT_MUL gives the Montgomery product of A and B, or ENOCTX when CTX_VALID = 0. -/
def Obligations.MontMulCompletesWithContext : Prop :=
  encode .montMul = 0x08 ∧ ∀ s : State, s.busy = false →
    (s.ctxValid = true → CompletesWith .montMul s (.result (mulW s.regA s.regB s.regN s.ninv) 0)) ∧
    (s.ctxValid = false → EndsWithError .montMul s .enoctx)

/-- R225: MONT_POW gives the square-and-multiply power of A by the bits of E starting at ONE, which is ONE when E = 0;
ENOCTX when CTX_VALID = 0. -/
def Obligations.MontPowCompletesWithContext : Prop :=
  encode .montPow = 0x09 ∧ ∀ s : State, s.busy = false →
    (s.ctxValid = true →
      CompletesWith .montPow s (.result (powW s.regA s.regE s.regN s.ninv s.one) 0) ∧
        (s.regE = 0 → powW s.regA s.regE s.regN s.ninv s.one = s.one)) ∧
    (s.ctxValid = false → EndsWithError .montPow s .enoctx)

/-- R245: SPRP64 with a valid context and N at least 3 completes with 1 or 0 in RES_LO; ENOCTX when CTX_VALID = 0, then
EDOMAIN when N < 3. With NINV and ONE the context of N, it is 1 exactly when N is a strong probable prime to base A. -/
def Obligations.Sprp64CompletesWithTheVerdict : Prop :=
  encode .sprp64 = 0x0A ∧ ∀ s : State, s.busy = false →
    (s.ctxValid = true → 3 ≤ s.regN.toNat →
      ∃ r : Word, CompletesWith .sprp64 s (.result r 0) ∧ (r = 0 ∨ r = 1) ∧
        (ContextInv s → (r = 1 ↔ StrongProbablePrime s.regN.toNat s.regA.toNat))) ∧
    (s.ctxValid = false → EndsWithError .sprp64 s .enoctx) ∧
    (s.ctxValid = true → s.regN.toNat < 3 → EndsWithError .sprp64 s .edomain)

/-- R162: MULMOD32 gives A[31:0] * B[31:0] mod N[31:0], or EDIVZERO when N[31:0] = 0. -/
def Obligations.Mulmod32CompletesForNonzeroModulus : Prop :=
  encode .mulmod32 = 0x10 ∧ ∀ s : State, s.busy = false →
    (s.regN.toNat % 2 ^ 32 ≠ 0 →
      ∃ r : Word, CompletesWith .mulmod32 s (.result r 0) ∧
        r.toNat = (s.regA.toNat % 2 ^ 32) * (s.regB.toNat % 2 ^ 32) % (s.regN.toNat % 2 ^ 32)) ∧
    (s.regN.toNat % 2 ^ 32 = 0 → EndsWithError .mulmod32 s .edivzero)

/-- R165, R166: POWMOD32 gives A[31:0] ^ E[31:0] mod N[31:0], with 0^0 = 1, or EDIVZERO when N[31:0] = 0. -/
def Obligations.Powmod32CompletesForNonzeroModulus : Prop :=
  encode .powmod32 = 0x11 ∧ ∀ s : State, s.busy = false →
    (s.regN.toNat % 2 ^ 32 ≠ 0 →
      ∃ r : Word, CompletesWith .powmod32 s (.result r 0) ∧
        r.toNat = (s.regA.toNat % 2 ^ 32) ^ (s.regE.toNat % 2 ^ 32) % (s.regN.toNat % 2 ^ 32)) ∧
    (s.regN.toNat % 2 ^ 32 = 0 → EndsWithError .powmod32 s .edivzero)

/-- R171, R172: SPRP32 for odd N[31:0] at least 3 completes with 1 or 0 in RES_LO, and 1 exactly when N[31:0] is a strong
probable prime to base A[31:0]; EDOMAIN when N[31:0] is even or below 3. -/
def Obligations.Sprp32CompletesWithTheVerdict : Prop :=
  encode .sprp32 = 0x12 ∧ ∀ s : State, s.busy = false →
    (s.regN.toNat % 2 ^ 32 % 2 = 1 → 3 ≤ s.regN.toNat % 2 ^ 32 →
      ∃ r : Word, CompletesWith .sprp32 s (.result r 0) ∧ (r = 0 ∨ r = 1) ∧
        (r = 1 ↔ StrongProbablePrime (s.regN.toNat % 2 ^ 32) (s.regA.toNat % 2 ^ 32))) ∧
    (s.regN.toNat % 2 ^ 32 % 2 = 0 ∨ s.regN.toNat % 2 ^ 32 < 3 → EndsWithError .sprp32 s .edomain)

/-- R39: the 32-bit commands read only bits [31:0] of N, A, B and E: two blocks that agree on these give the same
outcome, and the registers keep all their bits. -/
def Obligations.ThirtyTwoBitCommandsIgnoreUpperBits : Prop :=
  ∀ (i : Instr) (s₁ s₂ t₁ t₂ : State), (i = .mulmod32 ∨ i = .powmod32 ∨ i = .sprp32) →
    s₁.busy = false → s₂.busy = false →
    s₁.regN.toNat % 2 ^ 32 = s₂.regN.toNat % 2 ^ 32 → s₁.regA.toNat % 2 ^ 32 = s₂.regA.toNat % 2 ^ 32 →
    s₁.regB.toNat % 2 ^ 32 = s₂.regB.toNat % 2 ^ 32 → s₁.regE.toNat % 2 ^ 32 = s₂.regE.toNat % 2 ^ 32 →
    exec i s₁ = .next t₁ → exec i s₂ = .next t₂ →
    t₁.error = t₂.error ∧ t₁.inFlight.map InFlight.outcome = t₂.inFlight.map InFlight.outcome ∧
      t₁.regN = s₁.regN ∧ t₁.regA = s₁.regA ∧ t₁.regB = s₁.regB ∧ t₁.regE = s₁.regE

/-! ## What the arithmetic means -/

/-- R198: for every odd n the Hensel inverse is an inverse modulo 2^64; the start value is right to 5 bits; each
iteration turns est * n = 1 - k * 2^j into est' * n = 1 - k^2 * 2^(2j), modulo 2^64; for even n there is no inverse. -/
def Obligations.HenselLiftingInvertsOddN : Prop :=
  (∀ n < 2 ^ 64, n % 2 = 1 → n * montInv n % 2 ^ 64 = 1) ∧
    (∀ n < 2 ^ 64, n % 2 = 1 → n * montInvStart n % 32 = 1) ∧
    (∀ (n est j : Nat) (k : Int), (est * n : Int) % 2 ^ 64 = (1 - k * 2 ^ j) % 2 ^ 64 →
      (montInvStep n est * n : Int) % 2 ^ 64 = (1 - k ^ 2 * 2 ^ (2 * j)) % 2 ^ 64) ∧
    ∀ n x : Nat, n % 2 = 0 → n * x % 2 ^ 64 ≠ 1

/-- R202: for odd n and its Hensel inverse, m * n is t * 2^64 + lo exactly, with t < n; the reduction of
T = hi * 2^64 + lo is T * 2^-64 modulo n, it is canonical when hi < n, and it is hi - t when hi is at least n. -/
def Obligations.ReductionDividesByTheRadix : Prop :=
  ∀ lo hi n : Nat, lo < 2 ^ 64 → hi < 2 ^ 64 → n < 2 ^ 64 → n % 2 = 1 →
    lo * montInv n % 2 ^ 64 * n = montReduceT lo n (montInv n) * 2 ^ 64 + lo ∧
      montReduce lo hi n (montInv n) * 2 ^ 64 % n = (hi * 2 ^ 64 + lo) % n ∧
      montReduceT lo n (montInv n) < n ∧
      (hi < n → montReduce lo hi n (montInv n) < n) ∧
      (n ≤ hi → montReduce lo hi n (montInv n) = hi - montReduceT lo n (montInv n))

/-- R207: for odd n and canonical operands the high half of the product is below n, and the Montgomery product is
canonical and is a * b * 2^-64 modulo n; so the product of the Montgomery forms of x and y is the form of x * y. -/
def Obligations.MontgomeryProductOfForms : Prop :=
  ∀ n : Nat, n < 2 ^ 64 → n % 2 = 1 →
    (∀ a b, a < n → b < n →
      hi64 (a * b) < n ∧ montMul a b n (montInv n) < n ∧ montMul a b n (montInv n) * 2 ^ 64 % n = a * b % n) ∧
    ∀ x y, montMul (x * 2 ^ 64 % n) (y * 2 ^ 64 % n) n (montInv n) = x * y % n * 2 ^ 64 % n

/-- R216: for odd n, FROM_MONT after TO_MONT is the residue, and FROM_MONT of any y is y * 2^-64 modulo n, below n. -/
def Obligations.FromMontUndoesToMont : Prop :=
  ∀ n x : Nat, n < 2 ^ 64 → n % 2 = 1 → x < 2 ^ 64 →
    fromMont (toMont x n) n (montInv n) = x % n ∧
      fromMont x n (montInv n) < n ∧ fromMont x n (montInv n) * 2 ^ 64 % n = x % n

/-- R220, C1: Montgomery one is ((2^64 - 1) mod n) + 1; it lies in [1, n]; it is 2^64 mod n unless n divides 2^64, and
then it is n. -/
def Obligations.MontgomeryOneIsRadixModN : Prop :=
  ∀ n : Nat, 0 < n → n < 2 ^ 64 →
    montOne n = (2 ^ 64 - 1) % n + 1 ∧ 1 ≤ montOne n ∧ montOne n ≤ n ∧ (¬ n ∣ 2 ^ 64 → montOne n = 2 ^ 64 % n) ∧ (n ∣ 2 ^ 64 → montOne n = n)

/-- R226: with the context of an odd n at least 3, MONT_POW of the form of x is the form of x^e, canonical, for every e. -/
def Obligations.MontgomeryPowerOfForms : Prop :=
  ∀ n x e : Nat, n < 2 ^ 64 → n % 2 = 1 → 3 ≤ n → e < 2 ^ 64 →
    montPow (x * 2 ^ 64 % n) e n (montInv n) (montOne n) = x ^ e % n * 2 ^ 64 % n

/-- R241: `neg_one` is n - one modulo 2^64, plus n when that underflows; with the context of an odd n at least 3 the
correction never applies, and the value is the Montgomery form of n - 1, in [1, n - 1]. -/
def Obligations.NegOneIsTheFormOfMinusOne : Prop :=
  (∀ n one : Nat, n < 2 ^ 64 → one < 2 ^ 64 → one ≤ n → negOne n one = n - one) ∧
    (∀ n one : Nat, n < 2 ^ 64 → one < 2 ^ 64 → n < one →
      negOne n one = ((n + 2 ^ 64 - one) % 2 ^ 64 + n) % 2 ^ 64) ∧
    ∀ n : Nat, n < 2 ^ 64 → n % 2 = 1 → 3 ≤ n →
      1 ≤ montOne n ∧ montOne n < n ∧ 1 ≤ negOne n (montOne n) ∧ negOne n (montOne n) ≤ n - 1 ∧
        negOne n (montOne n) = (n - 1) * 2 ^ 64 % n

/-- R246: for odd n from 3 to 2^32 and every 32-bit witness, the 64-bit Montgomery round and the 32-bit round agree. -/
def Obligations.Sprp64AgreesWithSprp32 : Prop :=
  ∀ n a : Nat, n < 2 ^ 32 → a < 2 ^ 32 → n % 2 = 1 → 3 ≤ n →
    sprp64 n a (montInv n) (montOne n) = sprp32 n a

/-- R172, R247: a prime passes both rounds for every witness, so a result of 0 proves N composite. -/
def Obligations.PrimesPassEveryRound : Prop :=
  (∀ n a : Nat, n < 2 ^ 32 → a < 2 ^ 32 → 3 ≤ n → n.Prime → sprp32 n a = 1) ∧
    ∀ n a : Nat, n < 2 ^ 64 → a < 2 ^ 64 → 3 ≤ n → n.Prime → sprp64 n a (montInv n) (montOne n) = 1

/-! ## The bus port -/

/-- R82, R9, R30: BASE is a multiple of 0x1000; a transaction is mapped exactly when its address is one of the 0x1000 bytes
from BASE; MemRead and MemWrite at BASE + off(r) are the accesses of register r, and an offset hits a register exactly
when it is one of the 13, each named with its number. That a transaction holds its distance from BASE is log entry 1. -/
def Obligations.TransactionsAddressTheWindow : Prop :=
  Config.base % 0x1000 = 0 ∧
    (∀ (addr size off : Nat), mappedOffset (memRead addr size) = some off ↔
      addr = Config.base + off ∧ off < 0x1000) ∧
    (∀ (addr size off : Nat) (v : Word), mappedOffset (memWrite addr size v) = some off ↔
      addr = Config.base + off ∧ off < 0x1000) ∧
    (∀ r : Reg, memRead (Config.base + r.offset) 8 = readReq r) ∧
    (∀ (r : Reg) (v : Word), memWrite (Config.base + r.offset) 8 v = writeReq r v) ∧
    (∀ (off : Nat) (r : Reg), regAt off = some r ↔ off = r.offset) ∧
    regAt 0x00 = some .id ∧ regAt 0x08 = some .cmd ∧ regAt 0x10 = some .status ∧ regAt 0x18 = some .n ∧
    regAt 0x20 = some .a ∧ regAt 0x28 = some .b ∧ regAt 0x30 = some .e ∧ regAt 0x38 = some .ninv ∧
    regAt 0x40 = some .one ∧ regAt 0x48 = some .resLo ∧ regAt 0x50 = some .resHi ∧ regAt 0x58 = some .irqEn ∧
    regAt 0x60 = some .irqStat

/-- R83: a mapped transaction with size other than 8 or a misaligned offset gets SLVERR, changes no state, and a read
returns 0. -/
def Obligations.NarrowOrMisalignedGetsSlverr : Prop :=
  ∀ (q : Req) (off : Nat) (s : State), mappedOffset q = some off → (q.size ≠ 8 ∨ off % 8 ≠ 0) →
    transact q s = .next { s with
      reply := some { resp := .slverr, rdata := if q.kind = .read then some 0 else none } }

/-- R85: an aligned 64-bit transaction at an offset from 0x68 to 0xFF8 gets DECERR and changes no state. Outside the
window the block does nothing and answers nothing: that clause is the model's reading (log entry 5). -/
def Obligations.OffsetsWithoutRegisterGetDecerr : Prop :=
  (∀ (q : Req) (off : Nat) (s : State), mappedOffset q = some off → q.size = 8 → off % 8 = 0 →
    0x68 ≤ off → off ≤ 0xFF8 →
    transact q s = .next { s with
      reply := some { resp := .decerr, rdata := if q.kind = .read then some 0 else none } }) ∧
    ∀ (q : Req) (s : State), q.off < 0 ∨ 0x1000 ≤ q.off → transact q s = .next s

/-- R86: a write that hits ID, NINV, ONE, RES_LO or RES_HI gets SLVERR, changes no state and does not set WERR. -/
def Obligations.ReadOnlyWritesGetSlverr : Prop :=
  ∀ (r : Reg) (v : Word) (s : State), (r = .id ∨ r = .ninv ∨ r = .one ∨ r = .resLo ∨ r = .resHi) →
    transact (writeReq r v) s = .next { s with reply := some { resp := .slverr, rdata := none } }

/-- R265: a transaction with an error response has no effect in any state, BUSY or not: no WERR, no launch, no clearing
of CTX_VALID; only the response reports it. -/
def Obligations.RefusedTransactionsHaveNoEffect : Prop :=
  ∀ (q : Req) (s t : State) (a : Reply), s.reply = none → transact q s = .next t → t.reply = some a →
    a.resp ≠ .okay → t = { s with reply := some a }

/-- R82, R90: an aligned 64-bit read of a register answers OKAY with the register's value and changes nothing but the
answer. -/
def Obligations.ReadsReturnTheRegister : Prop :=
  ∀ (r : Reg) (s : State),
    transact (readReq r) s = .next { s with reply := some { resp := .okay, rdata := some (readReg r s) } } ∧
      readReg .id s = 0x534D_4350_0007_0001 ∧ readReg .cmd s = s.cmd ∧ readReg .n s = s.regN ∧
      readReg .a s = s.regA ∧ readReg .b s = s.regB ∧ readReg .e s = s.regE ∧ readReg .ninv s = s.ninv ∧
      readReg .one s = s.one ∧ readReg .resLo s = s.resLo ∧ readReg .resHi s = s.resHi

/-- R37: an accepted write to N stores the value and clears CTX_VALID, even when the value is the old one; NINV and ONE
stay; every command that needs the context then ends with ENOCTX. -/
def Obligations.WriteToNInvalidatesTheContext : Prop :=
  ∀ (s : State) (v : Word), s.busy = false →
    ∃ t, transact (writeReq .n v) s = .next t ∧
      t = { s with regN := v, ctxValid := false, reply := some okWrite } ∧
      ∀ i, needsContext i = true → EndsWithError i t .enoctx

/-- R38: accepted writes to A, B and E change only that register. -/
def Obligations.WritesToABEChangeOnlyThatRegister : Prop :=
  ∀ (s : State) (v : Word), s.busy = false →
    transact (writeReq .a v) s = .next { s with regA := v, reply := some okWrite } ∧
      transact (writeReq .b v) s = .next { s with regB := v, reply := some okWrite } ∧
      transact (writeReq .e v) s = .next { s with regE := v, reply := some okWrite }

/-- R35, R44, R45: in every state a write to STATUS clears WERR if bit 4 is 1 and changes nothing else; a write to IRQ_EN
sets DONE_IE from bit 0; a write to IRQ_STAT clears DONE_IP if bit 0 is 1; the other bits are ignored. -/
def Obligations.StatusAndInterruptWrites : Prop :=
  ∀ (s : State) (v : Word),
    transact (writeReq .status v) s = .next { s with reply := some okWrite, werr := s.werr && !v.getLsbD 4 } ∧
      transact (writeReq .irqEn v) s = .next { s with reply := some okWrite, doneIe := v.getLsbD 0 } ∧
      transact (writeReq .irqStat v) s = .next { s with reply := some okWrite, doneIp := s.doneIp && !v.getLsbD 0 }

/-- R92: a read of an operand register right after an accepted write returns the written value, and every other
register but STATUS reads as before. -/
def Obligations.ReadAfterWriteReturnsTheValue : Prop :=
  ∀ (s : State) (r : Reg) (v : Word), s.busy = false → (r = .n ∨ r = .a ∨ r = .b ∨ r = .e) →
    ∃ t u, transact (writeReq r v) s = .next t ∧ transact (readReq r) t = .next u ∧
      u.reply = some { resp := .okay, rdata := some v } ∧
      ∀ x, x ≠ r → x ≠ .status → readReg x u = readReg x s

/-- R35, R261: the STATUS word shows BUSY, DONE, ERR, CTX_VALID, WERR and ERRCODE in their bits, every reserved bit is
0, and ERRCODE is the number R261 gives the error: 0 without one, 1 EILLEGAL, 2 ENOCTX, 3 EDIVZERO, 4 EDOMAIN. -/
def Obligations.StatusWordLayout : Prop :=
  ∀ s : State,
    (readReg .status s).getLsbD 0 = s.busy ∧ (readReg .status s).getLsbD 1 = s.done ∧
      (readReg .status s).getLsbD 2 = s.err ∧ (readReg .status s).getLsbD 3 = s.ctxValid ∧
      (readReg .status s).getLsbD 4 = s.werr ∧ (readReg .status s).toNat / 2 ^ 8 = s.errCode.toNat ∧
      (∀ k, 5 ≤ k → k ≤ 7 → (readReg .status s).getLsbD k = false) ∧
      (s.error = none → (readReg .status s).toNat / 2 ^ 8 = 0) ∧
      (s.error = some .eillegal → (readReg .status s).toNat / 2 ^ 8 = 1) ∧
      (s.error = some .enoctx → (readReg .status s).toNat / 2 ^ 8 = 2) ∧
      (s.error = some .edivzero → (readReg .status s).toNat / 2 ^ 8 = 3) ∧
      (s.error = some .edomain → (readReg .status s).toNat / 2 ^ 8 = 4)

/-- R264, R261: as STATUS is read, ERRCODE is 0 when ERR = 0 and in [1, 4] when ERR = 1, in every state; and an accepted
CMD write that launches, like a reset, clears both. -/
def Obligations.ErrcodeIsZeroExactlyWithoutError : Prop :=
  (∀ s : State,
      ((readReg .status s).getLsbD 2 = false → (readReg .status s).toNat / 2 ^ 8 % 2 ^ 4 = 0) ∧
        ((readReg .status s).getLsbD 2 = true →
          1 ≤ (readReg .status s).toNat / 2 ^ 8 % 2 ^ 4 ∧ (readReg .status s).toNat / 2 ^ 8 % 2 ^ 4 ≤ 4)) ∧
    (readReg .status State.reset).getLsbD 2 = false ∧
    ∀ (i : Instr) (s t : State), s.busy = false → exec i s = .next t → firstFailing (checksOf i s) = none →
      (readReg .status t).getLsbD 2 = false ∧ (readReg .status t).toNat / 2 ^ 8 % 2 ^ 4 = 0

/-- R46, R44, R45: `irq` is the AND of IRQ_EN bit 0 and IRQ_STAT bit 0 as they are read, their other bits read as 0, and
`irq` is 0 at reset. -/
def Obligations.IrqIsTheLevelOfEnableAndPending : Prop :=
  (∀ s : State,
      s.irq = ((readReg .irqEn s).getLsbD 0 && (readReg .irqStat s).getLsbD 0) ∧
        (readReg .irqEn s).toNat / 2 = 0 ∧ (readReg .irqStat s).toNat / 2 = 0) ∧
    State.reset.irq = false

/-! ## Rules about the whole machine -/

/-- The invariant of the block holds at reset. -/
def Obligations.ResetMeetsTheInvariant : Prop := BlockInv State.reset

/-- Every step keeps the invariant: BUSY never with DONE, ERR only with DONE (R35), the command in flight is the one in
CMD and its outcome is the one of its checks and computation on the registers as they stand (R48, R146), and CTX_VALID = 1
means that N is odd and NINV and ONE are its context (R40). -/
def Obligations.StepKeepsTheInvariant : Prop :=
  ∀ s t : State, BlockInv s → step s = .next t → BlockInv t

/-- R36: no command writes an operand register: at an edge without reset, N, A, B or E changes only by an accepted
aligned write of that value to it. -/
def Obligations.OnlyTheHostWritesOperands : Prop :=
  ∀ s t : State, (nextCycle s).rst = false → step s = .next t →
    (t.regN ≠ s.regN → s.busy = false ∧ CarriesWrite (nextCycle s) .n t.regN) ∧
      (t.regA ≠ s.regA → s.busy = false ∧ CarriesWrite (nextCycle s) .a t.regA) ∧
      (t.regB ≠ s.regB → s.busy = false ∧ CarriesWrite (nextCycle s) .b t.regB) ∧
      (t.regE ≠ s.regE → s.busy = false ∧ CarriesWrite (nextCycle s) .e t.regE) ∧
      (t.cmd ≠ s.cmd → s.busy = false ∧ CarriesWrite (nextCycle s) .cmd t.cmd)

/-- R40, R228: at an edge without reset, NINV, ONE or CTX_VALID <- 1 changes only where MONT_CTX completes, and
CTX_VALID <- 0 only by an accepted write to N. Under the invariant, which names the command in flight. -/
def Obligations.OnlyMontCtxWritesTheContext : Prop :=
  ∀ s t : State, BlockInv s → (nextCycle s).rst = false → step s = .next t →
    (t.ninv ≠ s.ninv ∨ t.one ≠ s.one ∨ (t.ctxValid = true ∧ s.ctxValid = false) →
      s.busy = true ∧ t.busy = false ∧ s.cmd = encode .montCtx) ∧
    (t.ctxValid = false → s.ctxValid = true → s.busy = false ∧ CarriesWrite (nextCycle s) .n t.regN)

/-- R42, R310: at an edge without reset, RES_LO and RES_HI change only where a command in flight completes. -/
def Obligations.ResultsChangeOnlyAtCompletion : Prop :=
  ∀ s t : State, (nextCycle s).rst = false → step s = .next t →
    (t.resLo ≠ s.resLo ∨ t.resHi ≠ s.resHi) →
    ∃ r, s.inFlight = some r ∧ r.remaining ≤ 1 ∧ t.busy = false ∧ t.done = true ∧
      r.outcome = .result t.resLo t.resHi

/-- R146, R35: WERR is set only by a dropped write to CMD, N, A, B or E while BUSY = 1, and cleared only by a write of 1
to STATUS bit 4 or a reset. -/
def Obligations.WerrHasOneCause : Prop :=
  ∀ s t : State, (nextCycle s).rst = false → step s = .next t →
    (t.werr = true → s.werr = false → s.busy = true ∧ ∃ r v, Guarded r ∧ CarriesWrite (nextCycle s) r v) ∧
      (t.werr = false → s.werr = true → ∃ v, CarriesWrite (nextCycle s) .status v ∧ v.getLsbD 4 = true)

/-- R267, R45: every completion sets DONE_IP, and DONE_IP is cleared only by a write of 1 to IRQ_STAT bit 0 or a reset. -/
def Obligations.EveryCompletionRaisesDoneIp : Prop :=
  ∀ s t : State, (nextCycle s).rst = false → step s = .next t →
    (s.busy = true → t.busy = false → t.doneIp = true) ∧
      (s.busy = false → t.busy = false → (∃ c, CarriesWrite (nextCycle s) .cmd c) → t.doneIp = true ∧ t.done = true) ∧
      (t.doneIp = false → s.doneIp = true → ∃ v, CarriesWrite (nextCycle s) .irqStat v ∧ v.getLsbD 0 = true)

/-! ## Host scripts -/

/-- R117, R119: the bus transaction of each statement and the expansion of each pseudo-instruction. `P` reads STATUS at
0x10, repeats while the value read has bit 0 = 1, and ends with the answer that has bit 0 = 0; that a host gives up after
a given number of polls is log entry 14. -/
def Obligations.ScriptStatementsEncodeAsTransactions : Prop :=
  (∀ r v, stmtReq (.w r v) = memWrite (Config.base + r.offset) 8 v) ∧
    (∀ r, stmtReq (.r r) = memRead (Config.base + r.offset) 8) ∧
    (∀ i, stmtReq (.c i) = memWrite (Config.base + 0x08) 8 ((opcode i).setWidth 64)) ∧
    (∀ i, expandLine (.run i) = [.stmt (.c i), .poll]) ∧
    expandLine .clrwerr = [.stmt (.w .status 0x10)] ∧ expandLine .ack = [.stmt (.w .irqStat 0x1)] ∧
    (∀ v, expandLine (.ctx v) = [.stmt (.w .n v), .stmt (.c .montCtx), .poll]) ∧
    (∀ polls s, playLine polls .poll s = playPoll polls s) ∧
    (∀ s, playPoll 0 s = .outOfPolls) ∧
    ∀ (polls : Nat) (s : State), ∃ t, step (s.present (memRead (Config.base + 0x10) 8)) = .next t ∧
      t.reply = some (okRead (readReg .status s)) ∧
      playPoll (polls + 1) s =
        if (readReg .status s).getLsbD 0 then playPoll polls t else .ended t [some (okRead (readReg .status s))]
end

