-- ==== Sys2Proof/Laws/State.lean ====
section
/-! SUPPORT. One lemma per field per update of the state, true by rfl: no later proof unfolds a record update. -/

namespace Sys2Proof.Machine

variable (s : State)

/-! ### `State.dropWrite` -/

@[simp] theorem State.dropWrite_cmd : (s.dropWrite).cmd = s.cmd := rfl
@[simp] theorem State.dropWrite_regN : (s.dropWrite).regN = s.regN := rfl
@[simp] theorem State.dropWrite_regA : (s.dropWrite).regA = s.regA := rfl
@[simp] theorem State.dropWrite_regB : (s.dropWrite).regB = s.regB := rfl
@[simp] theorem State.dropWrite_regE : (s.dropWrite).regE = s.regE := rfl
@[simp] theorem State.dropWrite_ninv : (s.dropWrite).ninv = s.ninv := rfl
@[simp] theorem State.dropWrite_one : (s.dropWrite).one = s.one := rfl
@[simp] theorem State.dropWrite_resLo : (s.dropWrite).resLo = s.resLo := rfl
@[simp] theorem State.dropWrite_resHi : (s.dropWrite).resHi = s.resHi := rfl
@[simp] theorem State.dropWrite_done : (s.dropWrite).done = s.done := rfl
@[simp] theorem State.dropWrite_error : (s.dropWrite).error = s.error := rfl
@[simp] theorem State.dropWrite_ctxValid : (s.dropWrite).ctxValid = s.ctxValid := rfl
@[simp] theorem State.dropWrite_werr : (s.dropWrite).werr = true := rfl
@[simp] theorem State.dropWrite_doneIe : (s.dropWrite).doneIe = s.doneIe := rfl
@[simp] theorem State.dropWrite_doneIp : (s.dropWrite).doneIp = s.doneIp := rfl
@[simp] theorem State.dropWrite_inFlight : (s.dropWrite).inFlight = s.inFlight := rfl
@[simp] theorem State.dropWrite_reply : (s.dropWrite).reply = s.reply := rfl
@[simp] theorem State.dropWrite_inputs : (s.dropWrite).inputs = s.inputs := rfl
@[simp] theorem State.dropWrite_latChoices : (s.dropWrite).latChoices = s.latChoices := rfl
@[simp] theorem State.dropWrite_busy : (s.dropWrite).busy = s.busy := rfl

/-! ### `State.clearWerr` -/

@[simp] theorem State.clearWerr_cmd : (s.clearWerr).cmd = s.cmd := rfl
@[simp] theorem State.clearWerr_regN : (s.clearWerr).regN = s.regN := rfl
@[simp] theorem State.clearWerr_regA : (s.clearWerr).regA = s.regA := rfl
@[simp] theorem State.clearWerr_regB : (s.clearWerr).regB = s.regB := rfl
@[simp] theorem State.clearWerr_regE : (s.clearWerr).regE = s.regE := rfl
@[simp] theorem State.clearWerr_ninv : (s.clearWerr).ninv = s.ninv := rfl
@[simp] theorem State.clearWerr_one : (s.clearWerr).one = s.one := rfl
@[simp] theorem State.clearWerr_resLo : (s.clearWerr).resLo = s.resLo := rfl
@[simp] theorem State.clearWerr_resHi : (s.clearWerr).resHi = s.resHi := rfl
@[simp] theorem State.clearWerr_done : (s.clearWerr).done = s.done := rfl
@[simp] theorem State.clearWerr_error : (s.clearWerr).error = s.error := rfl
@[simp] theorem State.clearWerr_ctxValid : (s.clearWerr).ctxValid = s.ctxValid := rfl
@[simp] theorem State.clearWerr_werr : (s.clearWerr).werr = false := rfl
@[simp] theorem State.clearWerr_doneIe : (s.clearWerr).doneIe = s.doneIe := rfl
@[simp] theorem State.clearWerr_doneIp : (s.clearWerr).doneIp = s.doneIp := rfl
@[simp] theorem State.clearWerr_inFlight : (s.clearWerr).inFlight = s.inFlight := rfl
@[simp] theorem State.clearWerr_reply : (s.clearWerr).reply = s.reply := rfl
@[simp] theorem State.clearWerr_inputs : (s.clearWerr).inputs = s.inputs := rfl
@[simp] theorem State.clearWerr_latChoices : (s.clearWerr).latChoices = s.latChoices := rfl
@[simp] theorem State.clearWerr_busy : (s.clearWerr).busy = s.busy := rfl

/-! ### `State.storeN` -/

@[simp] theorem State.storeN_cmd (v : Word) : (s.storeN v).cmd = s.cmd := rfl
@[simp] theorem State.storeN_regN (v : Word) : (s.storeN v).regN = v := rfl
@[simp] theorem State.storeN_regA (v : Word) : (s.storeN v).regA = s.regA := rfl
@[simp] theorem State.storeN_regB (v : Word) : (s.storeN v).regB = s.regB := rfl
@[simp] theorem State.storeN_regE (v : Word) : (s.storeN v).regE = s.regE := rfl
@[simp] theorem State.storeN_ninv (v : Word) : (s.storeN v).ninv = s.ninv := rfl
@[simp] theorem State.storeN_one (v : Word) : (s.storeN v).one = s.one := rfl
@[simp] theorem State.storeN_resLo (v : Word) : (s.storeN v).resLo = s.resLo := rfl
@[simp] theorem State.storeN_resHi (v : Word) : (s.storeN v).resHi = s.resHi := rfl
@[simp] theorem State.storeN_done (v : Word) : (s.storeN v).done = s.done := rfl
@[simp] theorem State.storeN_error (v : Word) : (s.storeN v).error = s.error := rfl
@[simp] theorem State.storeN_ctxValid (v : Word) : (s.storeN v).ctxValid = false := rfl
@[simp] theorem State.storeN_werr (v : Word) : (s.storeN v).werr = s.werr := rfl
@[simp] theorem State.storeN_doneIe (v : Word) : (s.storeN v).doneIe = s.doneIe := rfl
@[simp] theorem State.storeN_doneIp (v : Word) : (s.storeN v).doneIp = s.doneIp := rfl
@[simp] theorem State.storeN_inFlight (v : Word) : (s.storeN v).inFlight = s.inFlight := rfl
@[simp] theorem State.storeN_reply (v : Word) : (s.storeN v).reply = s.reply := rfl
@[simp] theorem State.storeN_inputs (v : Word) : (s.storeN v).inputs = s.inputs := rfl
@[simp] theorem State.storeN_latChoices (v : Word) : (s.storeN v).latChoices = s.latChoices := rfl
@[simp] theorem State.storeN_busy (v : Word) : (s.storeN v).busy = s.busy := rfl

/-! ### `State.storeA` -/

@[simp] theorem State.storeA_cmd (v : Word) : (s.storeA v).cmd = s.cmd := rfl
@[simp] theorem State.storeA_regN (v : Word) : (s.storeA v).regN = s.regN := rfl
@[simp] theorem State.storeA_regA (v : Word) : (s.storeA v).regA = v := rfl
@[simp] theorem State.storeA_regB (v : Word) : (s.storeA v).regB = s.regB := rfl
@[simp] theorem State.storeA_regE (v : Word) : (s.storeA v).regE = s.regE := rfl
@[simp] theorem State.storeA_ninv (v : Word) : (s.storeA v).ninv = s.ninv := rfl
@[simp] theorem State.storeA_one (v : Word) : (s.storeA v).one = s.one := rfl
@[simp] theorem State.storeA_resLo (v : Word) : (s.storeA v).resLo = s.resLo := rfl
@[simp] theorem State.storeA_resHi (v : Word) : (s.storeA v).resHi = s.resHi := rfl
@[simp] theorem State.storeA_done (v : Word) : (s.storeA v).done = s.done := rfl
@[simp] theorem State.storeA_error (v : Word) : (s.storeA v).error = s.error := rfl
@[simp] theorem State.storeA_ctxValid (v : Word) : (s.storeA v).ctxValid = s.ctxValid := rfl
@[simp] theorem State.storeA_werr (v : Word) : (s.storeA v).werr = s.werr := rfl
@[simp] theorem State.storeA_doneIe (v : Word) : (s.storeA v).doneIe = s.doneIe := rfl
@[simp] theorem State.storeA_doneIp (v : Word) : (s.storeA v).doneIp = s.doneIp := rfl
@[simp] theorem State.storeA_inFlight (v : Word) : (s.storeA v).inFlight = s.inFlight := rfl
@[simp] theorem State.storeA_reply (v : Word) : (s.storeA v).reply = s.reply := rfl
@[simp] theorem State.storeA_inputs (v : Word) : (s.storeA v).inputs = s.inputs := rfl
@[simp] theorem State.storeA_latChoices (v : Word) : (s.storeA v).latChoices = s.latChoices := rfl
@[simp] theorem State.storeA_busy (v : Word) : (s.storeA v).busy = s.busy := rfl

/-! ### `State.storeB` -/

@[simp] theorem State.storeB_cmd (v : Word) : (s.storeB v).cmd = s.cmd := rfl
@[simp] theorem State.storeB_regN (v : Word) : (s.storeB v).regN = s.regN := rfl
@[simp] theorem State.storeB_regA (v : Word) : (s.storeB v).regA = s.regA := rfl
@[simp] theorem State.storeB_regB (v : Word) : (s.storeB v).regB = v := rfl
@[simp] theorem State.storeB_regE (v : Word) : (s.storeB v).regE = s.regE := rfl
@[simp] theorem State.storeB_ninv (v : Word) : (s.storeB v).ninv = s.ninv := rfl
@[simp] theorem State.storeB_one (v : Word) : (s.storeB v).one = s.one := rfl
@[simp] theorem State.storeB_resLo (v : Word) : (s.storeB v).resLo = s.resLo := rfl
@[simp] theorem State.storeB_resHi (v : Word) : (s.storeB v).resHi = s.resHi := rfl
@[simp] theorem State.storeB_done (v : Word) : (s.storeB v).done = s.done := rfl
@[simp] theorem State.storeB_error (v : Word) : (s.storeB v).error = s.error := rfl
@[simp] theorem State.storeB_ctxValid (v : Word) : (s.storeB v).ctxValid = s.ctxValid := rfl
@[simp] theorem State.storeB_werr (v : Word) : (s.storeB v).werr = s.werr := rfl
@[simp] theorem State.storeB_doneIe (v : Word) : (s.storeB v).doneIe = s.doneIe := rfl
@[simp] theorem State.storeB_doneIp (v : Word) : (s.storeB v).doneIp = s.doneIp := rfl
@[simp] theorem State.storeB_inFlight (v : Word) : (s.storeB v).inFlight = s.inFlight := rfl
@[simp] theorem State.storeB_reply (v : Word) : (s.storeB v).reply = s.reply := rfl
@[simp] theorem State.storeB_inputs (v : Word) : (s.storeB v).inputs = s.inputs := rfl
@[simp] theorem State.storeB_latChoices (v : Word) : (s.storeB v).latChoices = s.latChoices := rfl
@[simp] theorem State.storeB_busy (v : Word) : (s.storeB v).busy = s.busy := rfl

/-! ### `State.storeE` -/

@[simp] theorem State.storeE_cmd (v : Word) : (s.storeE v).cmd = s.cmd := rfl
@[simp] theorem State.storeE_regN (v : Word) : (s.storeE v).regN = s.regN := rfl
@[simp] theorem State.storeE_regA (v : Word) : (s.storeE v).regA = s.regA := rfl
@[simp] theorem State.storeE_regB (v : Word) : (s.storeE v).regB = s.regB := rfl
@[simp] theorem State.storeE_regE (v : Word) : (s.storeE v).regE = v := rfl
@[simp] theorem State.storeE_ninv (v : Word) : (s.storeE v).ninv = s.ninv := rfl
@[simp] theorem State.storeE_one (v : Word) : (s.storeE v).one = s.one := rfl
@[simp] theorem State.storeE_resLo (v : Word) : (s.storeE v).resLo = s.resLo := rfl
@[simp] theorem State.storeE_resHi (v : Word) : (s.storeE v).resHi = s.resHi := rfl
@[simp] theorem State.storeE_done (v : Word) : (s.storeE v).done = s.done := rfl
@[simp] theorem State.storeE_error (v : Word) : (s.storeE v).error = s.error := rfl
@[simp] theorem State.storeE_ctxValid (v : Word) : (s.storeE v).ctxValid = s.ctxValid := rfl
@[simp] theorem State.storeE_werr (v : Word) : (s.storeE v).werr = s.werr := rfl
@[simp] theorem State.storeE_doneIe (v : Word) : (s.storeE v).doneIe = s.doneIe := rfl
@[simp] theorem State.storeE_doneIp (v : Word) : (s.storeE v).doneIp = s.doneIp := rfl
@[simp] theorem State.storeE_inFlight (v : Word) : (s.storeE v).inFlight = s.inFlight := rfl
@[simp] theorem State.storeE_reply (v : Word) : (s.storeE v).reply = s.reply := rfl
@[simp] theorem State.storeE_inputs (v : Word) : (s.storeE v).inputs = s.inputs := rfl
@[simp] theorem State.storeE_latChoices (v : Word) : (s.storeE v).latChoices = s.latChoices := rfl
@[simp] theorem State.storeE_busy (v : Word) : (s.storeE v).busy = s.busy := rfl

/-! ### `State.setDoneIe` -/

@[simp] theorem State.setDoneIe_cmd (f : Bool) : (s.setDoneIe f).cmd = s.cmd := rfl
@[simp] theorem State.setDoneIe_regN (f : Bool) : (s.setDoneIe f).regN = s.regN := rfl
@[simp] theorem State.setDoneIe_regA (f : Bool) : (s.setDoneIe f).regA = s.regA := rfl
@[simp] theorem State.setDoneIe_regB (f : Bool) : (s.setDoneIe f).regB = s.regB := rfl
@[simp] theorem State.setDoneIe_regE (f : Bool) : (s.setDoneIe f).regE = s.regE := rfl
@[simp] theorem State.setDoneIe_ninv (f : Bool) : (s.setDoneIe f).ninv = s.ninv := rfl
@[simp] theorem State.setDoneIe_one (f : Bool) : (s.setDoneIe f).one = s.one := rfl
@[simp] theorem State.setDoneIe_resLo (f : Bool) : (s.setDoneIe f).resLo = s.resLo := rfl
@[simp] theorem State.setDoneIe_resHi (f : Bool) : (s.setDoneIe f).resHi = s.resHi := rfl
@[simp] theorem State.setDoneIe_done (f : Bool) : (s.setDoneIe f).done = s.done := rfl
@[simp] theorem State.setDoneIe_error (f : Bool) : (s.setDoneIe f).error = s.error := rfl
@[simp] theorem State.setDoneIe_ctxValid (f : Bool) : (s.setDoneIe f).ctxValid = s.ctxValid := rfl
@[simp] theorem State.setDoneIe_werr (f : Bool) : (s.setDoneIe f).werr = s.werr := rfl
@[simp] theorem State.setDoneIe_doneIe (f : Bool) : (s.setDoneIe f).doneIe = f := rfl
@[simp] theorem State.setDoneIe_doneIp (f : Bool) : (s.setDoneIe f).doneIp = s.doneIp := rfl
@[simp] theorem State.setDoneIe_inFlight (f : Bool) : (s.setDoneIe f).inFlight = s.inFlight := rfl
@[simp] theorem State.setDoneIe_reply (f : Bool) : (s.setDoneIe f).reply = s.reply := rfl
@[simp] theorem State.setDoneIe_inputs (f : Bool) : (s.setDoneIe f).inputs = s.inputs := rfl
@[simp] theorem State.setDoneIe_latChoices (f : Bool) : (s.setDoneIe f).latChoices = s.latChoices := rfl
@[simp] theorem State.setDoneIe_busy (f : Bool) : (s.setDoneIe f).busy = s.busy := rfl

/-! ### `State.clearDoneIp` -/

@[simp] theorem State.clearDoneIp_cmd : (s.clearDoneIp).cmd = s.cmd := rfl
@[simp] theorem State.clearDoneIp_regN : (s.clearDoneIp).regN = s.regN := rfl
@[simp] theorem State.clearDoneIp_regA : (s.clearDoneIp).regA = s.regA := rfl
@[simp] theorem State.clearDoneIp_regB : (s.clearDoneIp).regB = s.regB := rfl
@[simp] theorem State.clearDoneIp_regE : (s.clearDoneIp).regE = s.regE := rfl
@[simp] theorem State.clearDoneIp_ninv : (s.clearDoneIp).ninv = s.ninv := rfl
@[simp] theorem State.clearDoneIp_one : (s.clearDoneIp).one = s.one := rfl
@[simp] theorem State.clearDoneIp_resLo : (s.clearDoneIp).resLo = s.resLo := rfl
@[simp] theorem State.clearDoneIp_resHi : (s.clearDoneIp).resHi = s.resHi := rfl
@[simp] theorem State.clearDoneIp_done : (s.clearDoneIp).done = s.done := rfl
@[simp] theorem State.clearDoneIp_error : (s.clearDoneIp).error = s.error := rfl
@[simp] theorem State.clearDoneIp_ctxValid : (s.clearDoneIp).ctxValid = s.ctxValid := rfl
@[simp] theorem State.clearDoneIp_werr : (s.clearDoneIp).werr = s.werr := rfl
@[simp] theorem State.clearDoneIp_doneIe : (s.clearDoneIp).doneIe = s.doneIe := rfl
@[simp] theorem State.clearDoneIp_doneIp : (s.clearDoneIp).doneIp = false := rfl
@[simp] theorem State.clearDoneIp_inFlight : (s.clearDoneIp).inFlight = s.inFlight := rfl
@[simp] theorem State.clearDoneIp_reply : (s.clearDoneIp).reply = s.reply := rfl
@[simp] theorem State.clearDoneIp_inputs : (s.clearDoneIp).inputs = s.inputs := rfl
@[simp] theorem State.clearDoneIp_latChoices : (s.clearDoneIp).latChoices = s.latChoices := rfl
@[simp] theorem State.clearDoneIp_busy : (s.clearDoneIp).busy = s.busy := rfl

/-! ### `State.answer` -/

@[simp] theorem State.answer_cmd (r : Reply) : (s.answer r).cmd = s.cmd := rfl
@[simp] theorem State.answer_regN (r : Reply) : (s.answer r).regN = s.regN := rfl
@[simp] theorem State.answer_regA (r : Reply) : (s.answer r).regA = s.regA := rfl
@[simp] theorem State.answer_regB (r : Reply) : (s.answer r).regB = s.regB := rfl
@[simp] theorem State.answer_regE (r : Reply) : (s.answer r).regE = s.regE := rfl
@[simp] theorem State.answer_ninv (r : Reply) : (s.answer r).ninv = s.ninv := rfl
@[simp] theorem State.answer_one (r : Reply) : (s.answer r).one = s.one := rfl
@[simp] theorem State.answer_resLo (r : Reply) : (s.answer r).resLo = s.resLo := rfl
@[simp] theorem State.answer_resHi (r : Reply) : (s.answer r).resHi = s.resHi := rfl
@[simp] theorem State.answer_done (r : Reply) : (s.answer r).done = s.done := rfl
@[simp] theorem State.answer_error (r : Reply) : (s.answer r).error = s.error := rfl
@[simp] theorem State.answer_ctxValid (r : Reply) : (s.answer r).ctxValid = s.ctxValid := rfl
@[simp] theorem State.answer_werr (r : Reply) : (s.answer r).werr = s.werr := rfl
@[simp] theorem State.answer_doneIe (r : Reply) : (s.answer r).doneIe = s.doneIe := rfl
@[simp] theorem State.answer_doneIp (r : Reply) : (s.answer r).doneIp = s.doneIp := rfl
@[simp] theorem State.answer_inFlight (r : Reply) : (s.answer r).inFlight = s.inFlight := rfl
@[simp] theorem State.answer_reply (r : Reply) : (s.answer r).reply = some r := rfl
@[simp] theorem State.answer_inputs (r : Reply) : (s.answer r).inputs = s.inputs := rfl
@[simp] theorem State.answer_latChoices (r : Reply) : (s.answer r).latChoices = s.latChoices := rfl
@[simp] theorem State.answer_busy (r : Reply) : (s.answer r).busy = s.busy := rfl

/-! ### `State.accept` -/

@[simp] theorem State.accept_cmd (c : Word) : (s.accept c).cmd = c := rfl
@[simp] theorem State.accept_regN (c : Word) : (s.accept c).regN = s.regN := rfl
@[simp] theorem State.accept_regA (c : Word) : (s.accept c).regA = s.regA := rfl
@[simp] theorem State.accept_regB (c : Word) : (s.accept c).regB = s.regB := rfl
@[simp] theorem State.accept_regE (c : Word) : (s.accept c).regE = s.regE := rfl
@[simp] theorem State.accept_ninv (c : Word) : (s.accept c).ninv = s.ninv := rfl
@[simp] theorem State.accept_one (c : Word) : (s.accept c).one = s.one := rfl
@[simp] theorem State.accept_resLo (c : Word) : (s.accept c).resLo = s.resLo := rfl
@[simp] theorem State.accept_resHi (c : Word) : (s.accept c).resHi = s.resHi := rfl
@[simp] theorem State.accept_done (c : Word) : (s.accept c).done = false := rfl
@[simp] theorem State.accept_error (c : Word) : (s.accept c).error = none := rfl
@[simp] theorem State.accept_ctxValid (c : Word) : (s.accept c).ctxValid = s.ctxValid := rfl
@[simp] theorem State.accept_werr (c : Word) : (s.accept c).werr = s.werr := rfl
@[simp] theorem State.accept_doneIe (c : Word) : (s.accept c).doneIe = s.doneIe := rfl
@[simp] theorem State.accept_doneIp (c : Word) : (s.accept c).doneIp = s.doneIp := rfl
@[simp] theorem State.accept_inFlight (c : Word) : (s.accept c).inFlight = s.inFlight := rfl
@[simp] theorem State.accept_reply (c : Word) : (s.accept c).reply = s.reply := rfl
@[simp] theorem State.accept_inputs (c : Word) : (s.accept c).inputs = s.inputs := rfl
@[simp] theorem State.accept_latChoices (c : Word) : (s.accept c).latChoices = s.latChoices := rfl
@[simp] theorem State.accept_busy (c : Word) : (s.accept c).busy = s.busy := rfl

/-! ### `State.finish` -/

@[simp] theorem State.finish_cmd (e : Option CmdError) : (s.finish e).cmd = s.cmd := rfl
@[simp] theorem State.finish_regN (e : Option CmdError) : (s.finish e).regN = s.regN := rfl
@[simp] theorem State.finish_regA (e : Option CmdError) : (s.finish e).regA = s.regA := rfl
@[simp] theorem State.finish_regB (e : Option CmdError) : (s.finish e).regB = s.regB := rfl
@[simp] theorem State.finish_regE (e : Option CmdError) : (s.finish e).regE = s.regE := rfl
@[simp] theorem State.finish_ninv (e : Option CmdError) : (s.finish e).ninv = s.ninv := rfl
@[simp] theorem State.finish_one (e : Option CmdError) : (s.finish e).one = s.one := rfl
@[simp] theorem State.finish_resLo (e : Option CmdError) : (s.finish e).resLo = s.resLo := rfl
@[simp] theorem State.finish_resHi (e : Option CmdError) : (s.finish e).resHi = s.resHi := rfl
@[simp] theorem State.finish_done (e : Option CmdError) : (s.finish e).done = true := rfl
@[simp] theorem State.finish_error (e : Option CmdError) : (s.finish e).error = e := rfl
@[simp] theorem State.finish_ctxValid (e : Option CmdError) : (s.finish e).ctxValid = s.ctxValid := rfl
@[simp] theorem State.finish_werr (e : Option CmdError) : (s.finish e).werr = s.werr := rfl
@[simp] theorem State.finish_doneIe (e : Option CmdError) : (s.finish e).doneIe = s.doneIe := rfl
@[simp] theorem State.finish_doneIp (e : Option CmdError) : (s.finish e).doneIp = true := rfl
@[simp] theorem State.finish_inFlight (e : Option CmdError) : (s.finish e).inFlight = s.inFlight := rfl
@[simp] theorem State.finish_reply (e : Option CmdError) : (s.finish e).reply = s.reply := rfl
@[simp] theorem State.finish_inputs (e : Option CmdError) : (s.finish e).inputs = s.inputs := rfl
@[simp] theorem State.finish_latChoices (e : Option CmdError) : (s.finish e).latChoices = s.latChoices := rfl
@[simp] theorem State.finish_busy (e : Option CmdError) : (s.finish e).busy = s.busy := rfl

/-! ### `State.setInFlight` -/

@[simp] theorem State.setInFlight_cmd (r : InFlight) : (s.setInFlight r).cmd = s.cmd := rfl
@[simp] theorem State.setInFlight_regN (r : InFlight) : (s.setInFlight r).regN = s.regN := rfl
@[simp] theorem State.setInFlight_regA (r : InFlight) : (s.setInFlight r).regA = s.regA := rfl
@[simp] theorem State.setInFlight_regB (r : InFlight) : (s.setInFlight r).regB = s.regB := rfl
@[simp] theorem State.setInFlight_regE (r : InFlight) : (s.setInFlight r).regE = s.regE := rfl
@[simp] theorem State.setInFlight_ninv (r : InFlight) : (s.setInFlight r).ninv = s.ninv := rfl
@[simp] theorem State.setInFlight_one (r : InFlight) : (s.setInFlight r).one = s.one := rfl
@[simp] theorem State.setInFlight_resLo (r : InFlight) : (s.setInFlight r).resLo = s.resLo := rfl
@[simp] theorem State.setInFlight_resHi (r : InFlight) : (s.setInFlight r).resHi = s.resHi := rfl
@[simp] theorem State.setInFlight_done (r : InFlight) : (s.setInFlight r).done = s.done := rfl
@[simp] theorem State.setInFlight_error (r : InFlight) : (s.setInFlight r).error = s.error := rfl
@[simp] theorem State.setInFlight_ctxValid (r : InFlight) : (s.setInFlight r).ctxValid = s.ctxValid := rfl
@[simp] theorem State.setInFlight_werr (r : InFlight) : (s.setInFlight r).werr = s.werr := rfl
@[simp] theorem State.setInFlight_doneIe (r : InFlight) : (s.setInFlight r).doneIe = s.doneIe := rfl
@[simp] theorem State.setInFlight_doneIp (r : InFlight) : (s.setInFlight r).doneIp = s.doneIp := rfl
@[simp] theorem State.setInFlight_inFlight (r : InFlight) : (s.setInFlight r).inFlight = some r := rfl
@[simp] theorem State.setInFlight_reply (r : InFlight) : (s.setInFlight r).reply = s.reply := rfl
@[simp] theorem State.setInFlight_inputs (r : InFlight) : (s.setInFlight r).inputs = s.inputs := rfl
@[simp] theorem State.setInFlight_latChoices (r : InFlight) : (s.setInFlight r).latChoices = s.latChoices := rfl
@[simp] theorem State.setInFlight_busy (r : InFlight) : (s.setInFlight r).busy = true := rfl

/-! ### `State.clearInFlight` -/

@[simp] theorem State.clearInFlight_cmd : (s.clearInFlight).cmd = s.cmd := rfl
@[simp] theorem State.clearInFlight_regN : (s.clearInFlight).regN = s.regN := rfl
@[simp] theorem State.clearInFlight_regA : (s.clearInFlight).regA = s.regA := rfl
@[simp] theorem State.clearInFlight_regB : (s.clearInFlight).regB = s.regB := rfl
@[simp] theorem State.clearInFlight_regE : (s.clearInFlight).regE = s.regE := rfl
@[simp] theorem State.clearInFlight_ninv : (s.clearInFlight).ninv = s.ninv := rfl
@[simp] theorem State.clearInFlight_one : (s.clearInFlight).one = s.one := rfl
@[simp] theorem State.clearInFlight_resLo : (s.clearInFlight).resLo = s.resLo := rfl
@[simp] theorem State.clearInFlight_resHi : (s.clearInFlight).resHi = s.resHi := rfl
@[simp] theorem State.clearInFlight_done : (s.clearInFlight).done = s.done := rfl
@[simp] theorem State.clearInFlight_error : (s.clearInFlight).error = s.error := rfl
@[simp] theorem State.clearInFlight_ctxValid : (s.clearInFlight).ctxValid = s.ctxValid := rfl
@[simp] theorem State.clearInFlight_werr : (s.clearInFlight).werr = s.werr := rfl
@[simp] theorem State.clearInFlight_doneIe : (s.clearInFlight).doneIe = s.doneIe := rfl
@[simp] theorem State.clearInFlight_doneIp : (s.clearInFlight).doneIp = s.doneIp := rfl
@[simp] theorem State.clearInFlight_inFlight : (s.clearInFlight).inFlight = none := rfl
@[simp] theorem State.clearInFlight_reply : (s.clearInFlight).reply = s.reply := rfl
@[simp] theorem State.clearInFlight_inputs : (s.clearInFlight).inputs = s.inputs := rfl
@[simp] theorem State.clearInFlight_latChoices : (s.clearInFlight).latChoices = s.latChoices := rfl
@[simp] theorem State.clearInFlight_busy : (s.clearInFlight).busy = false := rfl

/-! ### `State.dropLatChoice` -/

@[simp] theorem State.dropLatChoice_cmd : (s.dropLatChoice).cmd = s.cmd := rfl
@[simp] theorem State.dropLatChoice_regN : (s.dropLatChoice).regN = s.regN := rfl
@[simp] theorem State.dropLatChoice_regA : (s.dropLatChoice).regA = s.regA := rfl
@[simp] theorem State.dropLatChoice_regB : (s.dropLatChoice).regB = s.regB := rfl
@[simp] theorem State.dropLatChoice_regE : (s.dropLatChoice).regE = s.regE := rfl
@[simp] theorem State.dropLatChoice_ninv : (s.dropLatChoice).ninv = s.ninv := rfl
@[simp] theorem State.dropLatChoice_one : (s.dropLatChoice).one = s.one := rfl
@[simp] theorem State.dropLatChoice_resLo : (s.dropLatChoice).resLo = s.resLo := rfl
@[simp] theorem State.dropLatChoice_resHi : (s.dropLatChoice).resHi = s.resHi := rfl
@[simp] theorem State.dropLatChoice_done : (s.dropLatChoice).done = s.done := rfl
@[simp] theorem State.dropLatChoice_error : (s.dropLatChoice).error = s.error := rfl
@[simp] theorem State.dropLatChoice_ctxValid : (s.dropLatChoice).ctxValid = s.ctxValid := rfl
@[simp] theorem State.dropLatChoice_werr : (s.dropLatChoice).werr = s.werr := rfl
@[simp] theorem State.dropLatChoice_doneIe : (s.dropLatChoice).doneIe = s.doneIe := rfl
@[simp] theorem State.dropLatChoice_doneIp : (s.dropLatChoice).doneIp = s.doneIp := rfl
@[simp] theorem State.dropLatChoice_inFlight : (s.dropLatChoice).inFlight = s.inFlight := rfl
@[simp] theorem State.dropLatChoice_reply : (s.dropLatChoice).reply = s.reply := rfl
@[simp] theorem State.dropLatChoice_inputs : (s.dropLatChoice).inputs = s.inputs := rfl
@[simp] theorem State.dropLatChoice_latChoices : (s.dropLatChoice).latChoices = s.latChoices.tail := rfl
@[simp] theorem State.dropLatChoice_busy : (s.dropLatChoice).busy = s.busy := rfl

/-! ### `State.takeCycle` -/

@[simp] theorem State.takeCycle_cmd : (s.takeCycle).cmd = s.cmd := rfl
@[simp] theorem State.takeCycle_regN : (s.takeCycle).regN = s.regN := rfl
@[simp] theorem State.takeCycle_regA : (s.takeCycle).regA = s.regA := rfl
@[simp] theorem State.takeCycle_regB : (s.takeCycle).regB = s.regB := rfl
@[simp] theorem State.takeCycle_regE : (s.takeCycle).regE = s.regE := rfl
@[simp] theorem State.takeCycle_ninv : (s.takeCycle).ninv = s.ninv := rfl
@[simp] theorem State.takeCycle_one : (s.takeCycle).one = s.one := rfl
@[simp] theorem State.takeCycle_resLo : (s.takeCycle).resLo = s.resLo := rfl
@[simp] theorem State.takeCycle_resHi : (s.takeCycle).resHi = s.resHi := rfl
@[simp] theorem State.takeCycle_done : (s.takeCycle).done = s.done := rfl
@[simp] theorem State.takeCycle_error : (s.takeCycle).error = s.error := rfl
@[simp] theorem State.takeCycle_ctxValid : (s.takeCycle).ctxValid = s.ctxValid := rfl
@[simp] theorem State.takeCycle_werr : (s.takeCycle).werr = s.werr := rfl
@[simp] theorem State.takeCycle_doneIe : (s.takeCycle).doneIe = s.doneIe := rfl
@[simp] theorem State.takeCycle_doneIp : (s.takeCycle).doneIp = s.doneIp := rfl
@[simp] theorem State.takeCycle_inFlight : (s.takeCycle).inFlight = s.inFlight := rfl
@[simp] theorem State.takeCycle_reply : (s.takeCycle).reply = none := rfl
@[simp] theorem State.takeCycle_inputs : (s.takeCycle).inputs = s.inputs.tail := rfl
@[simp] theorem State.takeCycle_latChoices : (s.takeCycle).latChoices = s.latChoices := rfl
@[simp] theorem State.takeCycle_busy : (s.takeCycle).busy = s.busy := rfl

/-! ### `State.present` -/

@[simp] theorem State.present_cmd (q : Req) : (s.present q).cmd = s.cmd := rfl
@[simp] theorem State.present_regN (q : Req) : (s.present q).regN = s.regN := rfl
@[simp] theorem State.present_regA (q : Req) : (s.present q).regA = s.regA := rfl
@[simp] theorem State.present_regB (q : Req) : (s.present q).regB = s.regB := rfl
@[simp] theorem State.present_regE (q : Req) : (s.present q).regE = s.regE := rfl
@[simp] theorem State.present_ninv (q : Req) : (s.present q).ninv = s.ninv := rfl
@[simp] theorem State.present_one (q : Req) : (s.present q).one = s.one := rfl
@[simp] theorem State.present_resLo (q : Req) : (s.present q).resLo = s.resLo := rfl
@[simp] theorem State.present_resHi (q : Req) : (s.present q).resHi = s.resHi := rfl
@[simp] theorem State.present_done (q : Req) : (s.present q).done = s.done := rfl
@[simp] theorem State.present_error (q : Req) : (s.present q).error = s.error := rfl
@[simp] theorem State.present_ctxValid (q : Req) : (s.present q).ctxValid = s.ctxValid := rfl
@[simp] theorem State.present_werr (q : Req) : (s.present q).werr = s.werr := rfl
@[simp] theorem State.present_doneIe (q : Req) : (s.present q).doneIe = s.doneIe := rfl
@[simp] theorem State.present_doneIp (q : Req) : (s.present q).doneIp = s.doneIp := rfl
@[simp] theorem State.present_inFlight (q : Req) : (s.present q).inFlight = s.inFlight := rfl
@[simp] theorem State.present_reply (q : Req) : (s.present q).reply = s.reply := rfl
@[simp] theorem State.present_inputs (q : Req) : (s.present q).inputs = { rst := false, req := some q } :: s.inputs := rfl
@[simp] theorem State.present_latChoices (q : Req) : (s.present q).latChoices = s.latChoices := rfl
@[simp] theorem State.present_busy (q : Req) : (s.present q).busy = s.busy := rfl

/-! ### `State.idle` -/

@[simp] theorem State.idle_cmd : (s.idle).cmd = s.cmd := rfl
@[simp] theorem State.idle_regN : (s.idle).regN = s.regN := rfl
@[simp] theorem State.idle_regA : (s.idle).regA = s.regA := rfl
@[simp] theorem State.idle_regB : (s.idle).regB = s.regB := rfl
@[simp] theorem State.idle_regE : (s.idle).regE = s.regE := rfl
@[simp] theorem State.idle_ninv : (s.idle).ninv = s.ninv := rfl
@[simp] theorem State.idle_one : (s.idle).one = s.one := rfl
@[simp] theorem State.idle_resLo : (s.idle).resLo = s.resLo := rfl
@[simp] theorem State.idle_resHi : (s.idle).resHi = s.resHi := rfl
@[simp] theorem State.idle_done : (s.idle).done = s.done := rfl
@[simp] theorem State.idle_error : (s.idle).error = s.error := rfl
@[simp] theorem State.idle_ctxValid : (s.idle).ctxValid = s.ctxValid := rfl
@[simp] theorem State.idle_werr : (s.idle).werr = s.werr := rfl
@[simp] theorem State.idle_doneIe : (s.idle).doneIe = s.doneIe := rfl
@[simp] theorem State.idle_doneIp : (s.idle).doneIp = s.doneIp := rfl
@[simp] theorem State.idle_inFlight : (s.idle).inFlight = none := rfl
@[simp] theorem State.idle_reply : (s.idle).reply = s.reply := rfl
@[simp] theorem State.idle_inputs : (s.idle).inputs = s.inputs := rfl
@[simp] theorem State.idle_latChoices : (s.idle).latChoices = s.latChoices := rfl
@[simp] theorem State.idle_busy : (s.idle).busy = false := rfl

/-! ### `State.applyWrites` -/

@[simp] theorem State.applyWrites_cmd (w : Writes) : (s.applyWrites w).cmd = s.cmd := by cases w <;> rfl
@[simp] theorem State.applyWrites_regN (w : Writes) : (s.applyWrites w).regN = s.regN := by cases w <;> rfl
@[simp] theorem State.applyWrites_regA (w : Writes) : (s.applyWrites w).regA = s.regA := by cases w <;> rfl
@[simp] theorem State.applyWrites_regB (w : Writes) : (s.applyWrites w).regB = s.regB := by cases w <;> rfl
@[simp] theorem State.applyWrites_regE (w : Writes) : (s.applyWrites w).regE = s.regE := by cases w <;> rfl
@[simp] theorem State.applyWrites_result_ninv (lo hi : Word) : (s.applyWrites (.result lo hi)).ninv = s.ninv := rfl
@[simp] theorem State.applyWrites_context_ninv (i o : Word) : (s.applyWrites (.context i o)).ninv = i := rfl
@[simp] theorem State.applyWrites_result_one (lo hi : Word) : (s.applyWrites (.result lo hi)).one = s.one := rfl
@[simp] theorem State.applyWrites_context_one (i o : Word) : (s.applyWrites (.context i o)).one = o := rfl
@[simp] theorem State.applyWrites_result_resLo (lo hi : Word) : (s.applyWrites (.result lo hi)).resLo = lo := rfl
@[simp] theorem State.applyWrites_context_resLo (i o : Word) : (s.applyWrites (.context i o)).resLo = s.resLo := rfl
@[simp] theorem State.applyWrites_result_resHi (lo hi : Word) : (s.applyWrites (.result lo hi)).resHi = hi := rfl
@[simp] theorem State.applyWrites_context_resHi (i o : Word) : (s.applyWrites (.context i o)).resHi = s.resHi := rfl
@[simp] theorem State.applyWrites_done (w : Writes) : (s.applyWrites w).done = s.done := by cases w <;> rfl
@[simp] theorem State.applyWrites_error (w : Writes) : (s.applyWrites w).error = s.error := by cases w <;> rfl
@[simp] theorem State.applyWrites_result_ctxValid (lo hi : Word) : (s.applyWrites (.result lo hi)).ctxValid = s.ctxValid := rfl
@[simp] theorem State.applyWrites_context_ctxValid (i o : Word) : (s.applyWrites (.context i o)).ctxValid = true := rfl
@[simp] theorem State.applyWrites_werr (w : Writes) : (s.applyWrites w).werr = s.werr := by cases w <;> rfl
@[simp] theorem State.applyWrites_doneIe (w : Writes) : (s.applyWrites w).doneIe = s.doneIe := by cases w <;> rfl
@[simp] theorem State.applyWrites_doneIp (w : Writes) : (s.applyWrites w).doneIp = s.doneIp := by cases w <;> rfl
@[simp] theorem State.applyWrites_inFlight (w : Writes) : (s.applyWrites w).inFlight = s.inFlight := by cases w <;> rfl
@[simp] theorem State.applyWrites_reply (w : Writes) : (s.applyWrites w).reply = s.reply := by cases w <;> rfl
@[simp] theorem State.applyWrites_inputs (w : Writes) : (s.applyWrites w).inputs = s.inputs := by cases w <;> rfl
@[simp] theorem State.applyWrites_latChoices (w : Writes) : (s.applyWrites w).latChoices = s.latChoices := by cases w <;> rfl
@[simp] theorem State.applyWrites_busy (w : Writes) : (s.applyWrites w).busy = s.busy := by cases w <;> rfl

/-! ### `State.resetEdge` and `State.reset` -/

@[simp] theorem State.resetEdge_cmd : s.resetEdge.cmd = 0 := rfl
@[simp] theorem State.resetEdge_regN : s.resetEdge.regN = 0 := rfl
@[simp] theorem State.resetEdge_regA : s.resetEdge.regA = 0 := rfl
@[simp] theorem State.resetEdge_regB : s.resetEdge.regB = 0 := rfl
@[simp] theorem State.resetEdge_regE : s.resetEdge.regE = 0 := rfl
@[simp] theorem State.resetEdge_ninv : s.resetEdge.ninv = 0 := rfl
@[simp] theorem State.resetEdge_one : s.resetEdge.one = 0 := rfl
@[simp] theorem State.resetEdge_resLo : s.resetEdge.resLo = 0 := rfl
@[simp] theorem State.resetEdge_resHi : s.resetEdge.resHi = 0 := rfl
@[simp] theorem State.resetEdge_done : s.resetEdge.done = false := rfl
@[simp] theorem State.resetEdge_error : s.resetEdge.error = none := rfl
@[simp] theorem State.resetEdge_ctxValid : s.resetEdge.ctxValid = false := rfl
@[simp] theorem State.resetEdge_werr : s.resetEdge.werr = false := rfl
@[simp] theorem State.resetEdge_doneIe : s.resetEdge.doneIe = false := rfl
@[simp] theorem State.resetEdge_doneIp : s.resetEdge.doneIp = false := rfl
@[simp] theorem State.resetEdge_inFlight : s.resetEdge.inFlight = none := rfl
@[simp] theorem State.resetEdge_reply : s.resetEdge.reply = none := rfl
@[simp] theorem State.resetEdge_inputs : s.resetEdge.inputs = s.inputs := rfl
@[simp] theorem State.resetEdge_latChoices : s.resetEdge.latChoices = s.latChoices := rfl
@[simp] theorem State.resetEdge_busy : s.resetEdge.busy = false := rfl
@[simp] theorem State.reset_busy : State.reset.busy = false := rfl

/-- Two states with equal fields are equal. -/
theorem State.ext_fields {s t : State} (h0 : s.cmd = t.cmd) (h1 : s.regN = t.regN) (h2 : s.regA = t.regA) (h3
    : s.regB = t.regB) (h4 : s.regE = t.regE) (h5 : s.ninv = t.ninv) (h6 : s.one = t.one) (h7 : s.resLo = t.resLo)
    (h8 : s.resHi = t.resHi) (h9 : s.done = t.done) (h10 : s.error = t.error) (h11 : s.ctxValid = t.ctxValid) (h12
    : s.werr = t.werr) (h13 : s.doneIe = t.doneIe) (h14 : s.doneIp = t.doneIp) (h15 : s.inFlight = t.inFlight)
    (h16 : s.reply = t.reply) (h17 : s.inputs = t.inputs) (h18 : s.latChoices = t.latChoices) : s = t := by
  cases s; cases t; simp_all

end Sys2Proof.Machine
end

