-- ==== Sys2Proof/Laws/Ops.lean ====
section
/-! SUPPORT. What each shared operation can do, said once. -/

namespace Sys2Proof.Machine

theorem busy_iff (s : State) : s.busy = true ↔ ∃ r, s.inFlight = some r := by
  simp [State.busy, Option.isSome_iff_exists]

theorem not_busy_iff (s : State) : s.busy = false ↔ s.inFlight = none := by
  simp [State.busy]

/-- A latency is at least one cycle (R9). -/
theorem one_le_latency (s : State) (i : Instr) : 1 ≤ s.latency i := by
  unfold State.latency Config.lat
  split <;> omega

/-! ### Register map -/

@[simp] theorem regAt_offset (r : Reg) : regAt r.offset = some r := by cases r <;> rfl

theorem regAt_eq_some {off : Nat} {r : Reg} (h : regAt off = some r) : off = r.offset := by
  have := List.find?_some h
  simpa using Eq.symm (by simpa using this)

theorem offset_lt (r : Reg) : r.offset < 0x1000 := by cases r <;> decide

theorem offset_aligned (r : Reg) : r.offset % 8 = 0 := by cases r <;> rfl

/-- Above the last register no offset is hit (R85). -/
theorem regAt_eq_none {off : Nat} (h : 0x68 ≤ off) : regAt off = none := by
  unfold regAt
  rw [List.find?_eq_none]
  intro r _
  have : r.offset < 0x68 := by cases r <;> decide
  simp; omega

/-! ### The lifecycle -/

theorem endWithError_eq (s : State) (c : Word) (e : CmdError) :
    s.endWithError c e = { s with cmd := c, done := true, error := some e, doneIp := true } := rfl

theorem launch_eq (s : State) (i : Instr) (w : Writes) : s.launch i w = launched i s w := rfl

theorem complete_eq (s : State) (r : InFlight) :
    s.complete r = { s.applyWrites r.outcome with inFlight := none, done := true, error := none, doneIp := true } := rfl

theorem issue_busy {i : Instr} {o : Except CmdError Writes} {s : State} (h : s.busy = true) :
    issue i o s = .next s.dropWrite := by simp [issue, h]

theorem issue_ok {i : Instr} {w : Writes} {s : State} (h : s.busy = false) :
    issue i (.ok w) s = .next (launched i s w) := by simp [issue, h, launch_eq]

theorem issue_error {i : Instr} {e : CmdError} {s : State} (h : s.busy = false) :
    issue i (.error e) s = .next (s.endWithError (encode i) e) := by simp [issue, h]

theorem issueImmediate_busy {i : Instr} {s : State} (h : s.busy = true) :
    issueImmediate i s = .next s.dropWrite := by simp [issueImmediate, h]

theorem issueImmediate_idle {i : Instr} {s : State} (h : s.busy = false) :
    issueImmediate i s = .next ((s.accept (encode i)).finish none) := by simp [issueImmediate, h]

theorem issueIllegal_busy {c : Word} {s : State} (h : s.busy = true) :
    issueIllegal c s = .next s.dropWrite := by simp [issueIllegal, h]

theorem issueIllegal_idle {c : Word} {s : State} (h : s.busy = false) :
    issueIllegal c s = .next (s.endWithError c .eillegal) := by simp [issueIllegal, h]

/-- Everything the issue of a command can do: a next state, which is the drop, the error or the launch. -/
theorem issue_cases (i : Instr) (o : Except CmdError Writes) (s : State) :
    (s.busy = true ∧ issue i o s = .next s.dropWrite) ∨
      (s.busy = false ∧ ∃ e, o = .error e ∧ issue i o s = .next (s.endWithError (encode i) e)) ∨
      (s.busy = false ∧ ∃ w, o = .ok w ∧ issue i o s = .next (launched i s w)) := by
  cases hb : s.busy
  · cases o with
    | error e => exact .inr (.inl ⟨rfl, e, rfl, issue_error hb⟩)
    | ok w => exact .inr (.inr ⟨rfl, w, rfl, issue_ok hb⟩)
  · exact .inl ⟨rfl, issue_busy hb⟩

/-! ### The engine -/

theorem engineTick_idle {s : State} (h : s.inFlight = none) : s.engineTick = s := by
  simp [State.engineTick, h]

theorem engineTick_complete {s : State} {r : InFlight} (h : s.inFlight = some r) (hr : r.remaining ≤ 1) :
    s.engineTick = s.complete r := by simp [State.engineTick, h, hr]

theorem engineTick_count {s : State} {r : InFlight} (h : s.inFlight = some r) (hr : 1 < r.remaining) :
    s.engineTick = s.setInFlight { r with remaining := r.remaining - 1 } := by
  simp [State.engineTick, h, Nat.not_le.mpr hr]

/-! ### The meanings, by their outcome -/

/-- The outcome of the checks and the computation of each command but NOP (R142, R263). -/
def outcomeOf (i : Instr) (s : State) : Except CmdError Writes :=
  match i with
  | .nop => .ok (.result 0 0)
  | .wmul => wmulOutcome s
  | .montInv => montInvOutcome s
  | .montOne => montOneOutcome s
  | .montCtx => montCtxOutcome s
  | .toMont => toMontOutcome s
  | .fromMont => fromMontOutcome s
  | .montReduce => montReduceOutcome s
  | .montMul => montMulOutcome s
  | .montPow => montPowOutcome s
  | .sprp64 => sprp64Outcome s
  | .mulmod32 => mulmod32Outcome s
  | .powmod32 => powmod32Outcome s
  | .sprp32 => sprp32Outcome s

theorem exec_nop (s : State) : exec .nop s = issueImmediate .nop s := rfl

theorem exec_eq_issue {i : Instr} (h : i ≠ .nop) (s : State) : exec i s = issue i (outcomeOf i s) s := by
  cases i <;> first | exact absurd rfl h | rfl

/-- A CMD write of any command while BUSY = 1 is dropped (R146). -/
theorem exec_busy (i : Instr) {s : State} (h : s.busy = true) : exec i s = .next s.dropWrite := by
  by_cases hi : i = .nop
  · subst hi; exact issueImmediate_busy h
  · rw [exec_eq_issue hi, issue_busy h]

/-- Everything a command can do: a next state, which is the drop while BUSY = 1, NOP's completion at once, an error at
once, or a launch. -/
theorem exec_cases (i : Instr) (s : State) :
    (s.busy = true ∧ exec i s = .next s.dropWrite) ∨
      (s.busy = false ∧ i = .nop ∧ exec i s = .next ((s.accept (encode i)).finish none)) ∨
      (s.busy = false ∧ i ≠ .nop ∧ ∃ e, outcomeOf i s = .error e ∧
        exec i s = .next (s.endWithError (encode i) e)) ∨
      (s.busy = false ∧ i ≠ .nop ∧ ∃ w, outcomeOf i s = .ok w ∧ exec i s = .next (launched i s w)) := by
  by_cases hi : i = .nop
  · subst hi
    cases hb : s.busy
    · exact .inr (.inl ⟨rfl, rfl, issueImmediate_idle hb⟩)
    · exact .inl ⟨rfl, issueImmediate_busy hb⟩
  · rw [exec_eq_issue hi]
    rcases issue_cases i (outcomeOf i s) s with h | ⟨hb, h⟩ | ⟨hb, h⟩
    · exact .inl h
    · exact .inr (.inr (.inl ⟨hb, hi, h⟩))
    · exact .inr (.inr (.inr ⟨hb, hi, h⟩))

end Sys2Proof.Machine
end

