-- ==== Sys2Proof/Laws/Bus.lean ====
section
/-! SUPPORT. What a bus transaction, a clock edge, a step and a run can do, said once. -/

namespace Sys2Proof.Machine

/-! ### Decoding a transaction -/

theorem mappedOffset_eq_some {q : Req} {off : Nat} :
    mappedOffset q = some off ↔ q.off = (off : Int) ∧ off < 0x1000 := by
  unfold mappedOffset
  cases h : q.off with
  | ofNat k =>
    simp only [Int.ofNat_eq_natCast, Nat.cast_inj]
    split
    · simp only [Option.some.injEq]
      constructor
      · rintro rfl
        exact ⟨rfl, by omega⟩
      · exact fun h => h.1
    · simp only [reduceCtorEq, false_iff, not_and]
      intro h
      omega
  | negSucc k => simp

@[simp] theorem mappedOffset_readReq (r : Reg) : mappedOffset (readReq r) = some r.offset :=
  mappedOffset_eq_some.2 ⟨rfl, offset_lt r⟩

@[simp] theorem mappedOffset_writeReq (r : Reg) (v : Word) : mappedOffset (writeReq r v) = some r.offset :=
  mappedOffset_eq_some.2 ⟨rfl, offset_lt r⟩

@[simp] theorem alignedAccess_readReq (r : Reg) : alignedAccess (readReq r) r.offset = true := by
  simp [alignedAccess, readReq, offset_aligned]

@[simp] theorem alignedAccess_writeReq (r : Reg) (v : Word) : alignedAccess (writeReq r v) r.offset = true := by
  simp [alignedAccess, writeReq, offset_aligned]

/-- A 64-bit read of a register (R82). -/
theorem transact_readReq (r : Reg) (s : State) :
    transact (readReq r) s = .next (s.answer (okRead (readReg r s))) := by
  simp [transact]
  rfl

/-- A 64-bit write of a register (R82). -/
theorem transact_writeReq (r : Reg) (v : Word) (s : State) : transact (writeReq r v) s = writeReg r v s := by
  simp [transact]
  rfl

/-- Everything a transaction can do, row by row of R87. -/
theorem transact_cases (q : Req) (s : State) :
    (mappedOffset q = none ∧ transact q s = .next s) ∨
      ∃ off, mappedOffset q = some off ∧
        ((alignedAccess q off = false ∧ transact q s = .next (s.answer (errorReply .slverr q.kind))) ∨
          (alignedAccess q off = true ∧ regAt off = none ∧
            transact q s = .next (s.answer (errorReply .decerr q.kind))) ∨
          ∃ r, alignedAccess q off = true ∧ regAt off = some r ∧
            ((q.kind = .read ∧ transact q s = .next (s.answer (okRead (readReg r s)))) ∨
              (q.kind = .write ∧ transact q s = writeReg r q.wdata s))) := by
  unfold transact
  cases h : mappedOffset q with
  | none => exact .inl ⟨rfl, rfl⟩
  | some off =>
    refine .inr ⟨off, rfl, ?_⟩
    cases ha : alignedAccess q off with
    | false => exact .inl ⟨rfl, by simp [ha]⟩
    | true =>
      cases hr : regAt off with
      | none => exact .inr (.inl ⟨rfl, rfl, by simp [ha, hr]⟩)
      | some r =>
        refine .inr (.inr ⟨r, rfl, rfl, ?_⟩)
        cases hk : q.kind
        · exact .inl ⟨rfl, by simp [ha, hr]⟩
        · exact .inr ⟨rfl, by simp [ha, hr]⟩

/-- A write to CMD answers a next state. -/
theorem writeCmd_next (c : Word) (s : State) : ∃ t, writeCmd c s = .next t := by
  unfold writeCmd
  cases decode? c with
  | none => simp [issueIllegal]; split <;> simp
  | some i =>
    rcases exec_cases i s with ⟨-, h⟩ | ⟨-, -, h⟩ | ⟨-, -, e, -, h⟩ | ⟨-, -, w, -, h⟩ <;>
      exact ⟨_, h⟩

/-- A write that hits a register answers a next state. -/
theorem writeReg_next (r : Reg) (v : Word) (s : State) : ∃ t, writeReg r v s = .next t := by
  cases r <;> first | exact ⟨_, rfl⟩ | exact writeCmd_next _ _

/-- A transaction always answers a next state. -/
theorem transact_next (q : Req) (s : State) : ∃ t, transact q s = .next t := by
  rcases transact_cases q s with ⟨-, h⟩ | ⟨off, -, ⟨-, h⟩ | ⟨-, -, h⟩ | ⟨r, -, -, ⟨-, h⟩ | ⟨-, h⟩⟩⟩
  · exact ⟨_, h⟩
  · exact ⟨_, h⟩
  · exact ⟨_, h⟩
  · exact ⟨_, h⟩
  · rw [h]
    exact writeReg_next _ _ _

theorem hostPhase_next (q : Option Req) (s : State) : ∃ t, hostPhase q s = .next t := by
  cases q with
  | none => exact ⟨s, rfl⟩
  | some q => exact transact_next q s

/-! ### While BUSY = 1 -/

/-- While a command is in flight, a transaction changes at most WERR, DONE_IE, DONE_IP and the answer (R146). -/
structure KeepsCommand (s t : State) : Prop where
  cmd : t.cmd = s.cmd
  regN : t.regN = s.regN
  regA : t.regA = s.regA
  regB : t.regB = s.regB
  regE : t.regE = s.regE
  ninv : t.ninv = s.ninv
  one : t.one = s.one
  resLo : t.resLo = s.resLo
  resHi : t.resHi = s.resHi
  done : t.done = s.done
  error : t.error = s.error
  ctxValid : t.ctxValid = s.ctxValid
  inFlight : t.inFlight = s.inFlight
  inputs : t.inputs = s.inputs
  latChoices : t.latChoices = s.latChoices

theorem writeReg_busy {r : Reg} {v : Word} {s t : State} (hb : s.busy = true) (h : writeReg r v s = .next t) :
    KeepsCommand s t := by
  have drop : KeepsCommand s (s.answer okWrite).dropWrite := by constructor <;> rfl
  have hb' : (s.answer okWrite).busy = true := hb
  cases r <;> simp only [writeReg, writeOperand, hb', if_true, Host.Outcome.next.injEq] at h
  case cmd =>
    unfold writeCmd at h
    cases hd : decode? v with
    | none => rw [hd] at h; simp only [issueIllegal_busy hb', Host.Outcome.next.injEq] at h; exact h ▸ drop
    | some i => rw [hd] at h; simp only [exec_busy i hb', Host.Outcome.next.injEq] at h; exact h ▸ drop
  case n => exact h ▸ drop
  case a => exact h ▸ drop
  case b => exact h ▸ drop
  case e => exact h ▸ drop
  case status => subst h; unfold writeStatus; split <;> constructor <;> rfl
  case irqStat => subst h; unfold writeIrqStat; split <;> constructor <;> rfl
  all_goals (subst h; constructor <;> rfl)

/-- While a command is in flight, the host's share of an edge keeps the command and the registers it read (R146). -/
theorem hostPhase_busy {q : Option Req} {s t : State} (hb : s.busy = true) (h : hostPhase q s = .next t) :
    KeepsCommand s t := by
  have same : ∀ r, KeepsCommand s (s.answer r) := fun r => by constructor <;> rfl
  cases q with
  | none => simp only [hostPhase, Host.Outcome.next.injEq] at h; subst h; constructor <;> rfl
  | some q =>
    simp only [hostPhase] at h
    rcases transact_cases q s with ⟨-, e⟩ | ⟨off, -, ⟨-, e⟩ | ⟨-, -, e⟩ | ⟨r, -, -, ⟨-, e⟩ | ⟨-, e⟩⟩⟩
    · rw [e] at h
      simp only [Host.Outcome.next.injEq] at h
      subst h
      constructor <;> rfl
    · rw [e] at h
      simp only [Host.Outcome.next.injEq] at h
      exact h ▸ same _
    · rw [e] at h
      simp only [Host.Outcome.next.injEq] at h
      exact h ▸ same _
    · rw [e] at h
      simp only [Host.Outcome.next.injEq] at h
      exact h ▸ same _
    · rw [e] at h
      exact writeReg_busy hb h

/-! ### Edges and steps -/

theorem enginePhase_idle {s t : State} (h : s.busy = false) : enginePhase s t = t := by simp [enginePhase, h]

theorem enginePhase_busy {s t : State} (h : s.busy = true) : enginePhase s t = t.engineTick := by
  simp [enginePhase, h]

theorem runEdge_eq {q : Option Req} {s t : State} (h : hostPhase q s = .next t) :
    runEdge q s = .next (enginePhase s t) := by simp [runEdge, h]

/-- An edge with `rst` = 0 answers a next state. -/
theorem runEdge_next (q : Option Req) (s : State) :
    ∃ t, hostPhase q s = .next t ∧ runEdge q s = .next (enginePhase s t) := by
  obtain ⟨t, h⟩ := hostPhase_next q s
  exact ⟨t, h, runEdge_eq h⟩

/-- Everything a step can do: the reset edge, the refusal of a transaction during reset, or an edge of work. -/
theorem step_cases (s : State) :
    ((nextCycle s).rst = true ∧ (nextCycle s).req = none ∧ step s = .next s.takeCycle.resetEdge) ∨
      ((nextCycle s).rst = true ∧ (∃ q, (nextCycle s).req = some q) ∧
        step s = .refused .transactionDuringReset) ∨
      ((nextCycle s).rst = false ∧ ∃ t, hostPhase (nextCycle s).req s.takeCycle = .next t ∧
        step s = .next (enginePhase s.takeCycle t)) := by
  unfold step clockEdge
  cases hr : (nextCycle s).rst with
  | true =>
    cases hq : (nextCycle s).req with
    | none => exact .inl ⟨rfl, rfl, by simp⟩
    | some q => exact .inr (.inl ⟨rfl, ⟨q, rfl⟩, by simp⟩)
  | false =>
    obtain ⟨t, h, e⟩ := runEdge_next (nextCycle s).req s.takeCycle
    exact .inr (.inr ⟨rfl, t, h, by simp [e]⟩)

/-- A step whose pins carry a transaction with `rst` low. -/
theorem step_present {s : State} {q : Req} {rest : List Cycle}
    (h : s.inputs = { rst := false, req := some q } :: rest) : step s = runEdge (some q) s.takeCycle := by
  simp [step, clockEdge, nextCycle, h]

/-- A step with nothing presented. -/
theorem step_no_inputs {s : State} (h : s.inputs = []) :
    step s = .next (enginePhase s.takeCycle s.takeCycle) := by
  simp [step, clockEdge, nextCycle, h, runEdge, hostPhase]

/-! ### Runs -/

theorem core_run_next {M : Host.Core} {k : Nat} {s t : M.State} (h : M.step s = .next t) :
    M.run (k + 1) s = M.run k t := by simp [Host.Core.run, h]

theorem core_run_refused {M : Host.Core} {k : Nat} {s : M.State} {r : M.Refusal} (h : M.step s = .refused r) :
    M.run (k + 1) s = .refused r := by simp [Host.Core.run, h]

/-- A run of `k` edges is the host's run of the machine. -/
theorem runEdges_core (k : Nat) (s : State) : runEdges k s = Sys2Proof.core.run k s := by
  induction k generalizing s with
  | zero => rfl
  | succ k ih =>
    cases h : step s with
    | next t =>
      have e : runEdges (k + 1) s = runEdges k t := by simp [runEdges, h]
      exact (e.trans (ih t)).trans (core_run_next (M := Sys2Proof.core) h).symm
    | fault r => exact nomatch r
    | refused r =>
      have e : runEdges (k + 1) s = .refused r := by simp [runEdges, h]
      exact e.trans (core_run_refused (M := Sys2Proof.core) h).symm

theorem runEdges_succ {k : Nat} {s t : State} (h : step s = .next t) : runEdges (k + 1) s = runEdges k t := by
  simp [runEdges, h]

/-- With nothing presented, a command in flight completes after exactly its remaining cycles (R139, R144). -/
theorem runEdges_completes {k : Nat} {s : State} {r : InFlight} (hf : s.inFlight = some r) (hi : s.inputs = [])
    (hk : r.remaining = k + 1) : runEdges (k + 1) s = .next ({ s with reply := none }.complete r) := by
  induction k generalizing s r with
  | zero =>
    have hb : s.takeCycle.busy = true := (busy_iff _).2 ⟨r, hf⟩
    rw [runEdges_succ (step_no_inputs hi), enginePhase_busy hb,
      engineTick_complete (r := r) (by simpa using hf) (by omega)]
    simp [runEdges, State.takeCycle, hi, complete_eq]
  | succ k ih =>
    have hb : s.takeCycle.busy = true := (busy_iff _).2 ⟨r, hf⟩
    rw [runEdges_succ (step_no_inputs hi), enginePhase_busy hb,
      engineTick_count (r := r) (by simpa using hf) (by omega),
      ih (r := { r with remaining := r.remaining - 1 }) rfl (by simp [hi]) (by simp; omega)]
    obtain ⟨op, w, rem⟩ := r
    cases w <;> simp [State.setInFlight, State.takeCycle, hi, complete_eq, State.applyWrites]

/-- A launched command completes with its outcome (R140, R144). -/
theorem completesWith_of_launch {i : Instr} {s : State} {w : Writes} (h : exec i s = .next (launched i s w)) :
    CompletesWith i s w := by
  refine ⟨h, ?_⟩
  obtain ⟨k, hk⟩ : ∃ k, s.latency i = k + 1 := ⟨s.latency i - 1, by have := one_le_latency s i; omega⟩
  have := runEdges_completes (k := k) (s := { launched i s w with inputs := [] })
    (r := { op := opcode i, outcome := w, remaining := s.latency i }) rfl rfl hk
  rw [hk]
  rw [hk] at this
  rw [this]
  cases w <;> rfl

/-- A command whose checks pass completes with its outcome. -/
theorem completesWith {i : Instr} {s : State} {w : Writes} (hi : i ≠ .nop) (hb : s.busy = false)
    (ho : outcomeOf i s = .ok w) : CompletesWith i s w :=
  completesWith_of_launch (by rw [exec_eq_issue hi, ho, issue_ok hb])

/-- A command whose check fails ends with its error. -/
theorem endsWithError {i : Instr} {s : State} {e : CmdError} (hi : i ≠ .nop) (hb : s.busy = false)
    (ho : outcomeOf i s = .error e) : EndsWithError i s e := by
  show exec i s = _
  rw [exec_eq_issue hi, ho, issue_error hb, endWithError_eq]

end Sys2Proof.Machine
end

