-- ==== Sys2Proof/Laws/Edge.lean ====
section
/-! SUPPORT. Everything a register write, the host's share and the engine's share of an edge can do, as one list of
cases each: what the statements about every step go through. -/

namespace Sys2Proof.Machine

theorem writeOperand_idle {store : State → State} {s : State} (h : s.busy = false) : writeOperand store s = store s := by
  simp [writeOperand, h]

theorem writeOperand_busy {store : State → State} {s : State} (h : s.busy = true) :
    writeOperand store s = s.dropWrite := by simp [writeOperand, h]

/-- The registers a write to which is dropped while BUSY = 1 (R146). -/
def dropsWhileBusy : Reg → Bool
  | .cmd | .n | .a | .b | .e => true
  | .id | .status | .ninv | .one | .resLo | .resHi | .irqEn | .irqStat => false

/-- Everything an aligned 64-bit write of a register can do (R86, R87, R140, R146). -/
inductive WriteDoes (r : Reg) (v : Word) (s t : State) : Prop
  | answered (a : Reply) (h : t = s.answer a)
  | dropped (hb : s.busy = true) (hr : dropsWhileBusy r = true) (h : t = (s.answer okWrite).dropWrite)
  | storesN (hb : s.busy = false) (hr : r = .n) (h : t = (s.answer okWrite).storeN v)
  | storesA (hb : s.busy = false) (hr : r = .a) (h : t = (s.answer okWrite).storeA v)
  | storesB (hb : s.busy = false) (hr : r = .b) (h : t = (s.answer okWrite).storeB v)
  | storesE (hb : s.busy = false) (hr : r = .e) (h : t = (s.answer okWrite).storeE v)
  | clearsWerr (hr : r = .status) (hv : bitOf v 4 = true) (h : t = (s.answer okWrite).clearWerr)
  | setsDoneIe (hr : r = .irqEn) (h : t = (s.answer okWrite).setDoneIe (bitOf v 0))
  | clearsDoneIp (hr : r = .irqStat) (hv : bitOf v 0 = true) (h : t = (s.answer okWrite).clearDoneIp)
  | illegal (hb : s.busy = false) (hr : r = .cmd) (hv : decode? v = none)
      (h : t = (s.answer okWrite).endWithError v .eillegal)
  | nop (hb : s.busy = false) (hr : r = .cmd) (hv : decode? v = some .nop)
      (h : t = ((s.answer okWrite).accept (encode .nop)).finish none)
  | errs (hb : s.busy = false) (hr : r = .cmd) (i : Instr) (e : CmdError) (hv : decode? v = some i) (hi : i ≠ .nop)
      (ho : outcomeOf i (s.answer okWrite) = .error e) (h : t = (s.answer okWrite).endWithError (encode i) e)
  | launches (hb : s.busy = false) (hr : r = .cmd) (i : Instr) (w : Writes) (hv : decode? v = some i) (hi : i ≠ .nop)
      (ho : outcomeOf i (s.answer okWrite) = .ok w) (h : t = launched i (s.answer okWrite) w)

theorem writeReg_does {r : Reg} {v : Word} {s t : State} (h : writeReg r v s = .next t) : WriteDoes r v s t := by
  have hb0 : (s.answer okWrite).busy = s.busy := rfl
  cases r <;> simp only [writeReg, Host.Outcome.next.injEq] at h
  case id | ninv | one | resLo | resHi => exact .answered _ h.symm
  case n | a | b | e =>
    cases hb : s.busy
    · rw [writeOperand_idle (hb0.trans hb)] at h
      first
        | exact .storesN hb rfl h.symm
        | exact .storesA hb rfl h.symm
        | exact .storesB hb rfl h.symm
        | exact .storesE hb rfl h.symm
    · rw [writeOperand_busy (hb0.trans hb)] at h
      exact .dropped hb rfl h.symm
  case status =>
    unfold writeStatus at h
    split at h
    · next hv => exact .clearsWerr rfl hv h.symm
    · exact .answered _ h.symm
  case irqEn => exact .setsDoneIe rfl h.symm
  case irqStat =>
    unfold writeIrqStat at h
    split at h
    · next hv => exact .clearsDoneIp rfl hv h.symm
    · exact .answered _ h.symm
  case cmd =>
    unfold writeCmd at h
    cases hd : decode? v with
    | none =>
      rw [hd] at h
      cases hb : s.busy
      · rw [issueIllegal_idle (hb0.trans hb), Host.Outcome.next.injEq] at h
        exact .illegal hb rfl hd h.symm
      · rw [issueIllegal_busy (hb0.trans hb), Host.Outcome.next.injEq] at h
        exact .dropped hb rfl h.symm
    | some i =>
      rw [hd] at h
      rcases exec_cases i (s.answer okWrite) with ⟨hb, e⟩ | ⟨hb, hi, e⟩ | ⟨hb, hi, e', ho, e⟩ | ⟨hb, hi, w, ho, e⟩ <;>
        simp only [e, Host.Outcome.next.injEq] at h
      · exact .dropped hb rfl h.symm
      · subst hi
        exact .nop hb rfl hd h.symm
      · exact .errs hb rfl i e' hd hi ho h.symm
      · exact .launches hb rfl i w hd hi ho h.symm

/-- Everything the host's share of an edge can do: at most an answer, or an aligned 64-bit write of a register. -/
theorem hostPhase_does {q : Option Req} {s t : State} (h : hostPhase q s = .next t) :
    t = { s with reply := t.reply } ∨
      ∃ p r, q = some p ∧ p.kind = .write ∧ p.size = 8 ∧ p.off = (r.offset : Int) ∧ WriteDoes r p.wdata s t := by
  cases q with
  | none => simp only [hostPhase, Host.Outcome.next.injEq] at h; subst h; exact .inl rfl
  | some q =>
    simp only [hostPhase] at h
    rcases transact_cases q s with ⟨-, e⟩ | ⟨off, ho, ⟨-, e⟩ | ⟨-, -, e⟩ | ⟨r, ha, hr, ⟨-, e⟩ | ⟨hk, e⟩⟩⟩ <;> rw [e] at h
    · simp only [Host.Outcome.next.injEq] at h; subst h; exact .inl rfl
    · simp only [Host.Outcome.next.injEq] at h; subst h; exact .inl rfl
    · simp only [Host.Outcome.next.injEq] at h; subst h; exact .inl rfl
    · simp only [Host.Outcome.next.injEq] at h; subst h; exact .inl rfl
    · have hs : q.size = 8 := by
        simp only [alignedAccess, Bool.and_eq_true, beq_iff_eq] at ha
        exact ha.1
      exact .inr ⟨q, r, rfl, hk, hs, by rw [(mappedOffset_eq_some.1 ho).1, regAt_eq_some hr], writeReg_does h⟩

/-- An edge with `rst` = 0 that answers `t`: the host's share, then the engine's. -/
theorem step_phases {s t : State} (hr : (nextCycle s).rst = false) (h : step s = .next t) :
    ∃ u, hostPhase (nextCycle s).req s.takeCycle = .next u ∧ t = enginePhase s.takeCycle u := by
  rcases step_cases s with ⟨h1, -⟩ | ⟨h1, -⟩ | ⟨-, u, h2, h3⟩
  · simp [h1] at hr
  · simp [h1] at hr
  · rw [h3, Host.Outcome.next.injEq] at h
    exact ⟨u, h2, h.symm⟩

/-- Everything the engine's share of an edge can do, when the host's share led from `s` to `u`. -/
theorem enginePhase_does {q : Option Req} {s u : State} (h : hostPhase q s = .next u) :
    (s.busy = false ∧ enginePhase s u = u) ∨
      ∃ r, s.inFlight = some r ∧ u.inFlight = some r ∧
        ((r.remaining ≤ 1 ∧ enginePhase s u = u.complete r) ∨
          (1 < r.remaining ∧ enginePhase s u = u.setInFlight { r with remaining := r.remaining - 1 })) := by
  cases hb : s.busy
  · exact .inl ⟨rfl, enginePhase_idle hb⟩
  · obtain ⟨r, hf⟩ := (busy_iff s).1 hb
    have hu : u.inFlight = some r := (hostPhase_busy hb h).inFlight.trans hf
    refine .inr ⟨r, hf, hu, ?_⟩
    rw [enginePhase_busy hb]
    by_cases hk : r.remaining ≤ 1
    · exact .inl ⟨hk, engineTick_complete hu hk⟩
    · exact .inr ⟨by omega, engineTick_count hu (by omega)⟩

/-! ### Clean runs -/

/-- One edge of a clean run (R148). -/
theorem cleanFrom_succ {k : Nat} {opened : Bool} {s : State} :
    cleanFrom (k + 1) opened s = true ↔
      ∃ t, step s = .next t ∧ cleanEdge opened s t = true ∧ cleanFrom k (leftOpen opened s t) t = true := by
  simp only [cleanFrom]
  cases step s with
  | next t => simp
  | fault r => exact nomatch r
  | refused r => simp

/-- What a clean run leaves: it is over, WERR = 0, and no command it launched is without its end (R148). -/
theorem cleanFrom_zero {opened : Bool} {s : State} :
    cleanFrom 0 opened s = true ↔ s.runOver = true ∧ s.werr = false ∧ opened = false := by
  simp [cleanFrom, and_assoc]

/-- A run that resets the block while a command it launched has not ended is not clean (R148, R301). -/
theorem cleanFrom_reset_open {k : Nat} {s : State} (hr : (nextCycle s).rst = true) :
    cleanFrom (k + 1) true s = false := by
  rw [Bool.eq_false_iff, Ne, cleanFrom_succ]
  rintro ⟨t, h, hc, -⟩
  rcases step_cases s with ⟨-, -, e⟩ | ⟨-, -, e⟩ | ⟨e, -⟩
  · rw [e, Host.Outcome.next.injEq] at h
    subst h
    revert hc
    simp [cleanEdge, State.resetEdge, State.busy, State.ended, State.reset]
  · exact absurd (e.symm.trans h) nofun
  · exact absurd (hr.symm.trans e) nofun

end Sys2Proof.Machine
end

