-- ==== Sys2Proof/Laws/Arith.lean ====
section
/-! SUPPORT. Bounds and unfolding facts of the arithmetic: every function stays below its width, and what a loop
computes does not depend on fuel that is left over. -/

namespace Sys2Proof.Machine

theorem full_lt (v : Word) : full v < radix := v.isLt

theorem low32_lt (v : Word) : low32 v < 2 ^ 32 := Nat.mod_lt _ (by norm_num)

@[simp] theorem toWord_toNat {v : Nat} (h : v < radix) : (toWord v).toNat = v := by
  rw [toWord, BitVec.toNat_ofNat]
  exact Nat.mod_eq_of_lt h

@[simp] theorem toWord_full (v : Word) : toWord (full v) = v := by simp [toWord, full]

theorem lo64_lt (v : Nat) : lo64 v < radix := Nat.mod_lt _ (by norm_num)

theorem hi64_lt (v : Nat) : hi64 v < radix := Nat.mod_lt _ (by norm_num)

theorem wrap64_lt (v : Int) : wrap64 v < radix := by
  have h := Int.emod_lt_of_pos v (show (0 : Int) < (radix : Int) by norm_num)
  have h' := Int.emod_nonneg v (show (radix : Int) ≠ 0 by norm_num)
  unfold wrap64
  omega

/-- The wrapped value as an integer (R11). -/
theorem wrap64_cast (v : Int) : (wrap64 v : Int) = v % (radix : Int) :=
  Int.toNat_of_nonneg (Int.emod_nonneg v (by norm_num))

/-- A product of two 64-bit values splits exactly into its halves (R191). -/
theorem wmul_exact {a b : Nat} (ha : a < radix) (hb : b < radix) :
    (wmul a b).2 * radix + (wmul a b).1 = a * b := by
  have h : a * b / radix < radix := Nat.div_lt_of_lt_mul (Nat.mul_lt_mul'' ha hb)
  simp only [wmul, lo64, hi64, Nat.mod_eq_of_lt h]
  exact Nat.div_add_mod' (a * b) radix

theorem montInvStep_lt (n est : Nat) : montInvStep n est < radix := Nat.mod_lt _ (by norm_num)

theorem montInv_lt (n : Nat) : montInv n < radix := montInvStep_lt _ _

theorem montReduceT_lt (lo n ninv : Nat) : montReduceT lo n ninv < radix := hi64_lt _

theorem montReduce_lt {lo hi n ninv : Nat} (h : hi < radix) : montReduce lo hi n ninv < radix := by
  simp only [montReduce]
  split
  · omega
  · exact wrap64_lt _

theorem montMul_lt (a b n ninv : Nat) : montMul a b n ninv < radix := montReduce_lt (hi64_lt _)

theorem fromMont_lt (x n ninv : Nat) : fromMont x n ninv < radix := montReduce_lt (by norm_num)

theorem toMont_lt {x n : Nat} (h : 0 < n) : toMont x n < n := Nat.mod_lt _ h

theorem montOne_pos (n : Nat) : 1 ≤ montOne n := Nat.le_add_left 1 _

theorem montOne_le {n : Nat} (h : 0 < n) : montOne n ≤ n := Nat.mod_lt (radix - 1) h

theorem mulmod32_lt {a b m : Nat} (h : 0 < m) : mulmod32 a b m < m := Nat.mod_lt _ h

/-! ### Loops -/

theorem montPowLoop_zero (n ninv fuel r b : Nat) : montPowLoop n ninv fuel r b 0 = r := by
  cases fuel <;> simp [montPowLoop]

theorem montPowLoop_succ (n ninv fuel r b k : Nat) :
    montPowLoop n ninv (fuel + 1) r b k =
      montPowLoop n ninv fuel (if k % 2 = 1 then montMul r b n ninv else r) (montMul b b n ninv) (k / 2) := by
  rcases Nat.eq_zero_or_pos k with rfl | h
  · simp [montPowLoop_zero]
  · rw [montPowLoop, if_neg (by omega)]

theorem montPowLoop_lt {n ninv fuel r b k : Nat} (hr : r < radix) : montPowLoop n ninv fuel r b k < radix := by
  induction fuel generalizing r b k with
  | zero => exact hr
  | succ fuel ih =>
    rw [montPowLoop_succ]
    apply ih
    split
    · exact montMul_lt _ _ _ _
    · exact hr

theorem montPow_lt {base e n ninv one : Nat} (h : one < radix) : montPow base e n ninv one < radix :=
  montPowLoop_lt h

theorem powmod32Loop_zero (m fuel r b : Nat) : powmod32Loop m fuel r b 0 = r := by
  cases fuel <;> simp [powmod32Loop]

theorem powmod32Loop_succ (m fuel r b e : Nat) :
    powmod32Loop m (fuel + 1) r b e =
      powmod32Loop m fuel (if e % 2 = 1 then mulmod32 r b m else r) (mulmod32 b b m) (e / 2) := by
  rcases Nat.eq_zero_or_pos e with rfl | h
  · simp [powmod32Loop_zero]
  · rw [powmod32Loop, if_neg (by omega)]

theorem sprp32Loop_le (n count x : Nat) : sprp32Loop n count x ≤ 1 := by
  induction count generalizing x with
  | zero => exact Nat.zero_le _
  | succ count ih =>
    simp only [sprp32Loop]
    split
    · exact le_rfl
    · split
      · exact Nat.zero_le _
      · exact ih _

theorem sprp64Loop_le (n ninv one m1 count x : Nat) : sprp64Loop n ninv one m1 count x ≤ 1 := by
  induction count generalizing x with
  | zero => exact Nat.zero_le _
  | succ count ih =>
    simp only [sprp64Loop]
    split
    · exact le_rfl
    · split
      · exact Nat.zero_le _
      · exact ih _

/-- SPRP32 results are 0 or 1 (R43). -/
theorem sprp32_le (n a : Nat) : sprp32 n a ≤ 1 := by
  simp only [sprp32]
  split
  · exact le_rfl
  · split
    · exact le_rfl
    · exact sprp32Loop_le _ _ _

/-- SPRP64 results are 0 or 1 (R43). -/
theorem sprp64_le (n a ninv one : Nat) : sprp64 n a ninv one ≤ 1 := by
  simp only [sprp64]
  split
  · exact le_rfl
  · split
    · exact le_rfl
    · exact sprp64Loop_le _ _ _ _ _ _

theorem ctzUpTo_spec {fuel v : Nat} (h0 : v ≠ 0) (h : v < 2 ^ fuel) :
    2 ^ ctzUpTo fuel v ∣ v ∧ v / 2 ^ ctzUpTo fuel v % 2 = 1 ∧ ctzUpTo fuel v < fuel := by
  induction fuel generalizing v with
  | zero => omega
  | succ fuel ih =>
    rw [ctzUpTo]
    split
    · next h1 => simpa using h1
    · next h1 =>
      obtain ⟨⟨w, hw⟩, h2, h3⟩ := ih (v := v / 2) (by omega) (by rw [pow_succ] at h; omega)
      have hv : v = 2 * (v / 2) := by omega
      refine ⟨⟨w, ?_⟩, ?_, by omega⟩
      · rw [pow_succ, mul_comm (2 ^ _) 2, mul_assoc, ← hw, ← hv]
      · rw [pow_succ, mul_comm (2 ^ _) 2, ← Nat.div_div_eq_div_mul]
        exact h2

/-- `ctz` splits a nonzero 64-bit value into a power of two and an odd part (R13). -/
theorem ctz_spec {v : Nat} (h0 : v ≠ 0) (h : v < 2 ^ 64) :
    v / 2 ^ ctz v * 2 ^ ctz v = v ∧ v / 2 ^ ctz v % 2 = 1 :=
  ⟨Nat.div_mul_cancel (ctzUpTo_spec h0 h).1, (ctzUpTo_spec h0 h).2.1⟩

end Sys2Proof.Machine
end

