-- ==== Sys2Proof/Laws/PerInstr.lean ====
section
/-! SUPPORT. Statements about every command as syntax, one lemma per constructor of `Instr`. -/

namespace Sys2Proof.Laws

/-- Encoding (R110 to R113): the command is well formed, its word has RSVD = 0 and an assigned OPCODE, the word is the
OPCODE alone, and the decoder reads the command back from the word and from its byte lanes. -/
def Encoding.Statement (i : Instr) : Prop :=
  i.wellFormed = true ∧ wordWellFormed (encode i) = true ∧ (encode i).toNat = (opcode i).toNat ∧
    decode (encode i) = .ok i ∧ decodeTableWord 64 (encode i).toNat = some i

theorem Encoding.nop : Encoding.Statement .nop := by unfold Encoding.Statement; decide
theorem Encoding.wmul : Encoding.Statement .wmul := by unfold Encoding.Statement; decide
theorem Encoding.montInv : Encoding.Statement .montInv := by unfold Encoding.Statement; decide
theorem Encoding.montOne : Encoding.Statement .montOne := by unfold Encoding.Statement; decide
theorem Encoding.montCtx : Encoding.Statement .montCtx := by unfold Encoding.Statement; decide
theorem Encoding.toMont : Encoding.Statement .toMont := by unfold Encoding.Statement; decide
theorem Encoding.fromMont : Encoding.Statement .fromMont := by unfold Encoding.Statement; decide
theorem Encoding.montReduce : Encoding.Statement .montReduce := by unfold Encoding.Statement; decide
theorem Encoding.montMul : Encoding.Statement .montMul := by unfold Encoding.Statement; decide
theorem Encoding.montPow : Encoding.Statement .montPow := by unfold Encoding.Statement; decide
theorem Encoding.sprp64 : Encoding.Statement .sprp64 := by unfold Encoding.Statement; decide
theorem Encoding.mulmod32 : Encoding.Statement .mulmod32 := by unfold Encoding.Statement; decide
theorem Encoding.powmod32 : Encoding.Statement .powmod32 := by unfold Encoding.Statement; decide
theorem Encoding.sprp32 : Encoding.Statement .sprp32 := by unfold Encoding.Statement; decide

end Sys2Proof.Laws
end

