-- ==== Sys2Proof/Tests/Slice0.lean ====
section
/-! SUPPORT. The model's own tests, and a named witness for the hypotheses of every statement. The expected values are
the spec's: the vectors V and B of spec/95_test_vectors.md, the opcode map 30_encoding.md R111, the register map
10_state.md R30, the reset values R50. A test runs one step, a test of a clean run at most three. -/

namespace Sys2Proof.Tests

open Sys2Proof.Machine Sys2Proof.Claims

/-! ## Helpers: small states -/

/-- After reset with N, A, B, E written; the schedule gives the next command one cycle. -/
def idleWith (n a b e : Word) : State :=
  { State.reset with regN := n, regA := a, regB := b, regE := e, latChoices := [0] }

/-- `idleWith`, with a Montgomery context. -/
def withCtx (s : State) (ninv one : Word) : State := { s with ninv := ninv, one := one, ctxValid := true }

/-- N = 97 with its context (vector V30). -/
def at97 (a b e : Word) : State := withCtx (idleWith 0x61 a b e) 0xA3A0_FD5C_5F02_A3A1 0x3D

/-- N = P = 2^64 - 59 with its context (vector V32). -/
def atP (a b e : Word) : State :=
  withCtx (idleWith 0xFFFF_FFFF_FFFF_FFC5 a b e) 0x3411_5B1E_5F75_270D 0x3B

/-- WMUL of A = 3 and B = 5 in flight with `k` cycles left, IRQ_STAT = 1 from an earlier command (B32). -/
def wmulInFlight (k : Nat) : State :=
  { idleWith 0 3 5 0 with
    cmd := 1, doneIp := true, inFlight := some { op := 1, outcome := .result 15 0, remaining := k } }

/-- MONT_CTX of N = 97 in flight with `k` cycles left. -/
def ctxInFlight (k : Nat) : State :=
  { idleWith 0x61 0 0 0 with
    cmd := 4, inFlight := some { op := 4, outcome := .context 0xA3A0_FD5C_5F02_A3A1 0x3D, remaining := k } }

/-- The next state of an outcome. -/
def nextOf : StepOutcome → Option State
  | .next t => some t
  | .refused _ => none

/-- The register writes a command was launched with. -/
def writesOf (o : StepOutcome) : Option Writes := ((nextOf o).bind State.inFlight).map InFlight.outcome

/-- A register as it reads after a step or a command. -/
def regAfter (r : Reg) (o : StepOutcome) : Option Word := (nextOf o).map (readReg r)

/-- One edge that presents a transaction. -/
def edge (q : Req) (s : State) : StepOutcome := step (s.present q)

/-- The answer of the bus port at that edge. -/
def answerOf (o : StepOutcome) : Option Reply := (nextOf o).bind State.reply

/-! ## Well-formed words (30_encoding.md R113) -/

/-- The first check refuses a word with a bit of RSVD set: 0x108 (V145), bit 8, bit 63. -/
theorem test_rsvd_check_refuses :
    rsvdClear 0x108 = false ∧ rsvdClear 0x100 = false ∧ rsvdClear 0x8000_0000_0000_0000 = false ∧
      wordWellFormed 0x108 = false ∧ rsvdClear 0xFF = true := by decide

/-- The second check refuses the two reserved ranges at their ends, and accepts their neighbours. -/
theorem test_opcode_check_refuses :
    opcodeAssigned 0x0B = false ∧ opcodeAssigned 0x0F = false ∧ opcodeAssigned 0x13 = false ∧
      opcodeAssigned 0xFF = false ∧ wordWellFormed 0x0B = false ∧ wordWellFormed 0xFF = false ∧
      opcodeAssigned 0x0A = true ∧ opcodeAssigned 0x10 = true ∧ opcodeAssigned 0x12 = true := by decide

/-! ## Decoding (30_encoding.md R110 to R113) -/

/-- Each command's word, written out from R110 and R111, the fields RSVD then OPCODE. -/
theorem test_decode_each_command :
    decode 0b00000000_00000000_00000000_00000000_00000000_00000000_00000000_00000000 = .ok .nop ∧
      decode 0b00000000_00000000_00000000_00000000_00000000_00000000_00000000_00000001 = .ok .wmul ∧
      decode 0b00000000_00000000_00000000_00000000_00000000_00000000_00000000_00000010 = .ok .montInv ∧
      decode 0b00000000_00000000_00000000_00000000_00000000_00000000_00000000_00000011 = .ok .montOne ∧
      decode 0b00000000_00000000_00000000_00000000_00000000_00000000_00000000_00000100 = .ok .montCtx ∧
      decode 0b00000000_00000000_00000000_00000000_00000000_00000000_00000000_00000101 = .ok .toMont ∧
      decode 0b00000000_00000000_00000000_00000000_00000000_00000000_00000000_00000110 = .ok .fromMont ∧
      decode 0b00000000_00000000_00000000_00000000_00000000_00000000_00000000_00000111 = .ok .montReduce ∧
      decode 0b00000000_00000000_00000000_00000000_00000000_00000000_00000000_00001000 = .ok .montMul ∧
      decode 0b00000000_00000000_00000000_00000000_00000000_00000000_00000000_00001001 = .ok .montPow ∧
      decode 0b00000000_00000000_00000000_00000000_00000000_00000000_00000000_00001010 = .ok .sprp64 ∧
      decode 0b00000000_00000000_00000000_00000000_00000000_00000000_00000000_00010000 = .ok .mulmod32 ∧
      decode 0b00000000_00000000_00000000_00000000_00000000_00000000_00000000_00010001 = .ok .powmod32 ∧
      decode 0b00000000_00000000_00000000_00000000_00000000_00000000_00000000_00010010 = .ok .sprp32 := by
  decide

/-- Illegal words are refused by name (R113; V143 to V146). -/
theorem test_decode_refuses :
    decode 0x0B = .error .reservedOpcode ∧ decode 0x0F = .error .reservedOpcode ∧
      decode 0x13 = .error .reservedOpcode ∧ decode 0xFF = .error .reservedOpcode ∧
      decode 0x108 = .error .reservedBits ∧ decode 0x1_0000_0000 = .error .reservedBits ∧
      decodeBytes [0x01] = .error .wrongLength ∧ decodeBytes [] = .error .wrongLength := by decide

/-- The OPCODE is in the byte lane at the lowest address (R84, R110). -/
theorem test_decode_lanes :
    decodeBytes [0x12, 0, 0, 0, 0, 0, 0, 0] = .ok .sprp32 ∧
      decodeBytes [0, 0, 0, 0, 0, 0, 0, 0x12] = .error .reservedBits ∧
      decodeTableWord 64 0x11 = some .powmod32 ∧ decodeTableWord 64 0x113 = none := by decide

/-- `step` runs a placed word as the first command after reset: NOP completes, WMUL is in flight (B12, B15). -/
theorem test_step_runs_placed_word :
    regAfter .status (step (State.reset.withFetchWord 64 0x0)) = some 0x2 ∧
      regAfter .status (step (State.reset.withFetchWord 64 0x1)) = some 0x1 ∧
      regAfter .status (step (State.reset.withFetchWord 64 0x108)) = some 0x106 := by decide

/-! ## The commands (95_test_vectors.md section L2) -/

/-- V142, B24: NOP completes at once and clears an earlier EDIVZERO. -/
theorem test_nop :
    regAfter .status (exec .nop State.reset) = some 0x2 ∧
      regAfter .status (exec .nop { State.reset with done := true, error := some .edivzero }) = some 0x2 := by decide

/-- V3, V6: the high half and the low half. -/
theorem test_wmul :
    writesOf (exec .wmul (idleWith 0 0xFFFF_FFFF_FFFF_FFFF 0xFFFF_FFFF_FFFF_FFFF 0)) =
        some (.result 0x1 0xFFFF_FFFF_FFFF_FFFE) ∧
      writesOf (exec .wmul (idleWith 0 0x1234_5678_9ABC_DEF0 0xFED_CBA9_8765_4321 0)) =
        some (.result 0x2236_D88F_E561_8CF0 0x121_FA00_AD77_D742) := by decide +kernel

/-- V11, V13: odd moduli. -/
theorem test_montInv_odd :
    writesOf (exec .montInv (idleWith 0x61 0 0 0)) = some (.result 0xA3A0_FD5C_5F02_A3A1 0) ∧
      writesOf (exec .montInv (idleWith 0xFFFF_FFFF_FFFF_FFC5 0 0 0)) = some (.result 0x3411_5B1E_5F75_270D 0) := by
  decide +kernel

/-- V16, V17: even moduli complete too. -/
theorem test_montInv_even :
    writesOf (exec .montInv (idleWith 0x0 0 0 0)) = some (.result 0x20 0) ∧
      writesOf (exec .montInv (idleWith 0x2 0 0 0)) = some (.result 0xFFFF_F0E3_2D7D_4140 0) := by decide +kernel

/-- V19, V22, V28: a modulus of 1, one that divides 2^64, one that does not. -/
theorem test_montOne :
    writesOf (exec .montOne (idleWith 0x1 0 0 0)) = some (.result 0x1 0) ∧
      writesOf (exec .montOne (idleWith 0x4 0 0 0)) = some (.result 0x4 0) ∧
      writesOf (exec .montOne (idleWith 0x8000_0000_0000_0001 0 0 0)) = some (.result 0x7FFF_FFFF_FFFF_FFFF 0) := by
  decide +kernel

/-- V29. -/
theorem test_montOne_zero : regAfter .status (exec .montOne (idleWith 0 0 0 0)) = some 0x306 := by decide

/-- V32, V31. -/
theorem test_montCtx :
    writesOf (exec .montCtx (idleWith 0xFFFF_FFFF_FFFF_FFC5 0 0 0)) =
        some (.context 0x3411_5B1E_5F75_270D 0x3B) ∧
      writesOf (exec .montCtx (idleWith 0x1 0 0 0)) = some (.context 0x1 0x1) := by decide +kernel

/-- V34, V35: even moduli. -/
theorem test_montCtx_even :
    regAfter .status (exec .montCtx (idleWith 0x0 0 0 0)) = some 0x406 ∧
      regAfter .status (exec .montCtx (idleWith 0x62 0 0 0)) = some 0x406 := by decide

/-- V42, V46, V47: A above N, A above a large N, N = 1. -/
theorem test_toMont :
    writesOf (exec .toMont (idleWith 0x61 0xFFFF_FFFF_FFFF_FFFF 0 0)) = some (.result 0x47 0) ∧
      writesOf (exec .toMont (idleWith 0xFFFF_FFFF_FFFF_FFC5 0xFFFF_FFFF_FFFF_FFFF 0 0)) = some (.result 0xD5E 0) ∧
      writesOf (exec .toMont (idleWith 0x1 0x7 0 0)) = some (.result 0 0) := by decide +kernel

/-- V51, V54, V57. -/
theorem test_fromMont :
    writesOf (exec .fromMont (at97 0x1 0 0)) = some (.result 0x23 0) ∧
      writesOf (exec .fromMont (at97 0xFFFF_FFFF_FFFF_FFFF 0 0)) = some (.result 0x3F 0) ∧
      regAfter .status (exec .fromMont (idleWith 0x61 0xE 0 0)) = some 0x206 := by decide +kernel

/-- V60, V63, V64: the borrow, the largest canonical T, hi at least N. -/
theorem test_montReduce :
    writesOf (exec .montReduce (at97 0x1 0x0 0)) = some (.result 0x23 0) ∧
      writesOf (exec .montReduce (at97 0xFFFF_FFFF_FFFF_FFFF 0x60 0)) = some (.result 0x3E 0) ∧
      writesOf (exec .montReduce (at97 0x0 0xC8 0)) = some (.result 0xC8 0) := by decide +kernel

/-- V66, V69, V70. -/
theorem test_montMul :
    writesOf (exec .montMul (at97 0xE 0x27 0)) = some (.result 0x1 0) ∧
      writesOf (exec .montMul (at97 0xFFFF_FFFF_FFFF_FFFF 0xFFFF_FFFF_FFFF_FFFF 0)) =
        some (.result 0xFFFF_FFFF_FFFF_FFC0 0) ∧
      writesOf (exec .montMul (atP 0xFFFF_FFFF_FFFF_FF8A 0xFFFF_FFFF_FFFF_FF8A 0)) = some (.result 0x3B 0) := by
  decide +kernel

/-- V75, V77, V85: 0^0, a small exponent, every exponent bit set. -/
theorem test_montPow :
    writesOf (exec .montPow (at97 0x0 0 0x0)) = some (.result 0x3D 0) ∧
      writesOf (exec .montPow (at97 0x19 0 0xA)) = some (.result 0x5D 0) ∧
      writesOf (exec .montPow (at97 0xE 0 0xFFFF_FFFF_FFFF_FFFF)) = some (.result 0x7 0) := by decide +kernel

/-- V87, V88: the round passes at its first squaring, and the loop runs out. -/
theorem test_sprp64 :
    writesOf (exec .sprp64 (withCtx (idleWith 0x1_36A3_52B2_C8C1 0x2 0 0) 0x67A3_AC01_44CD_C741 0x1_17F1_3A1F_3308)) =
        some (.result 0x1 0) ∧
      writesOf (exec .sprp64
          (withCtx (idleWith 0x1_36A3_52B2_C8C1 0x17 0 0) 0x67A3_AC01_44CD_C741 0x1_17F1_3A1F_3308)) =
        some (.result 0x0 0) := by decide +kernel

/-- V104, B27: EDOMAIN for N = 1 with a context; ENOCTX first for N = 2 without. -/
theorem test_sprp64_errors :
    regAfter .status (exec .sprp64 (withCtx (idleWith 0x1 0x2 0 0) 0x1 0x1)) = some 0x40E ∧
      regAfter .status (exec .sprp64 (idleWith 0x2 0 0 0)) = some 0x206 := by decide

/-- V108, V109, V112: exact products, and only the low 32 bits of A and N. -/
theorem test_mulmod32 :
    writesOf (exec .mulmod32 (idleWith 0xFFFF_FFFE 0xFFFF_FFFF 0xFFFF_FFFF 0)) = some (.result 0x1 0) ∧
      writesOf (exec .mulmod32 (idleWith 0x7 0x1_0000_0003 0x5 0)) = some (.result 0x1 0) ∧
      writesOf (exec .mulmod32 (idleWith 0x1_0000_0007 0xFFFF_FFFF 0x2 0)) = some (.result 0x6 0) := by decide +kernel

/-- V114: a modulus whose low 32 bits are 0. -/
theorem test_mulmod32_zero :
    regAfter .status (exec .mulmod32 (idleWith 0x1_0000_0000 0x3 0x5 0)) = some 0x306 := by decide

/-- V119, V121, V123: 0^0 modulo 1, a large case, only the low 32 bits of E. -/
theorem test_powmod32 :
    writesOf (exec .powmod32 (idleWith 0x1 0x0 0 0x0)) = some (.result 0x0 0) ∧
      writesOf (exec .powmod32 (idleWith 0xBFA1_7DC7 0x7 0 0x5FD0_BEE3)) = some (.result 0xBFA1_7DC6 0) ∧
      writesOf (exec .powmod32 (idleWith 0x7 0x3 0 0x1_0000_0002)) = some (.result 0x2 0) := by decide +kernel

/-- V125, V126, V127. -/
theorem test_sprp32 :
    writesOf (exec .sprp32 (idleWith 0x7FF 0x2 0 0)) = some (.result 0x1 0) ∧
      writesOf (exec .sprp32 (idleWith 0x7FF 0x3 0 0)) = some (.result 0x0 0) ∧
      writesOf (exec .sprp32 (idleWith 0xBFA1_7DC7 0x3D 0 0)) = some (.result 0x0 0) := by decide +kernel

/-- V138, V139, V140. -/
theorem test_sprp32_errors :
    regAfter .status (exec .sprp32 (idleWith 0x800 0x2 0 0)) = some 0x406 ∧
      regAfter .status (exec .sprp32 (idleWith 0x1 0x2 0 0)) = some 0x406 ∧
      regAfter .status (exec .sprp32 (idleWith 0x0 0x2 0 0)) = some 0x406 := by decide

/-! ## The bus port and the edge (95_test_vectors.md, vectors B) -/

/-- B1, B2: the two reads after reset. -/
theorem test_reads_after_reset :
    answerOf (edge (readReq .id) State.reset) = some (okRead 0x534D_4350_0007_0001) ∧
      answerOf (edge (readReq .status) State.reset) = some (okRead 0x0) := by decide

/-- B3, B5, B6, B7, B8, B9: the error responses. -/
theorem test_error_responses :
    answerOf (edge (writeReq .id 5) State.reset) = some { resp := .slverr, rdata := none } ∧
      answerOf (edge { readReq .cmd with off := 0x0C } State.reset) = some { resp := .slverr, rdata := some 0 } ∧
      answerOf (edge { readReq .status with size := 4 } State.reset) = some { resp := .slverr, rdata := some 0 } ∧
      answerOf (edge { writeReq .n 7 with size := 4 } State.reset) = some { resp := .slverr, rdata := none } ∧
      answerOf (edge { readReq .id with off := 0x68 } State.reset) = some { resp := .decerr, rdata := some 0 } ∧
      answerOf (edge { writeReq .id 1 with off := 0xFF8 } State.reset) = some { resp := .decerr, rdata := none } := by
  decide

/-- B17, B20: while a command is in flight a write to A is dropped with WERR, a write to IRQ_EN is accepted. -/
theorem test_writes_while_busy :
    regAfter .a (edge (writeReq .a 7) (wmulInFlight 3)) = some 3 ∧
      regAfter .status (edge (writeReq .a 7) (wmulInFlight 3)) = some 0x11 ∧
      regAfter .irqEn (edge (writeReq .irqEn 1) (wmulInFlight 3)) = some 1 := by decide

/-- B22: a write of the old value to N clears CTX_VALID and keeps NINV. -/
theorem test_write_n_clears_ctxValid :
    regAfter .status (edge (writeReq .n 0x61) { at97 0 0 0 with done := true }) = some 0x2 ∧
      regAfter .ninv (edge (writeReq .n 0x61) (at97 0 0 0)) = some 0xA3A0_FD5C_5F02_A3A1 := by decide

/-- B31: the completion wins over a clearing write to IRQ_STAT in the same edge. -/
theorem test_completion_wins :
    regAfter .irqStat (edge (writeReq .irqStat 1) (wmulInFlight 1)) = some 1 ∧
      regAfter .resLo (edge (writeReq .irqStat 1) (wmulInFlight 1)) = some 15 := by decide

/-- B33: a reset edge discards the command in flight. -/
theorem test_reset_discards :
    regAfter .resLo (step { wmulInFlight 1 with inputs := [{ rst := true, req := none }] }) = some 0 ∧
      regAfter .status (step { wmulInFlight 1 with inputs := [{ rst := true, req := none }] }) = some 0 ∧
      regAfter .a (step { wmulInFlight 1 with inputs := [{ rst := true, req := none }] }) = some 0 := by decide

/-- R300: the only refusal is a transaction during reset, of any kind; a reset edge alone is none. -/
theorem test_transaction_during_reset_refused :
    nextOf (step { State.reset with inputs := [{ rst := true, req := some (readReq .id) }] }) = none ∧
      (nextOf (step { State.reset with inputs := [{ rst := true, req := none }] })).isSome = true := by decide

/-- R148, B33: a run that launches WMUL and resets while it is in flight is not clean, also when a later command ends
well; the same launch left to end (LAT = 1) is clean; a command that ends with an error is not. -/
theorem test_clean_run :
    cleanRun 2 { idleWith 0 3 5 0 with
        inputs := [{ rst := false, req := some (writeReq .cmd 1) }, { rst := true, req := none }] } = false ∧
      cleanRun 3 { idleWith 0 3 5 0 with
        inputs := [{ rst := false, req := some (writeReq .cmd 1) }, { rst := true, req := none },
          { rst := false, req := some (writeReq .cmd 0) }] } = false ∧
      cleanRun 2 { idleWith 0 3 5 0 with inputs := [{ rst := false, req := some (writeReq .cmd 1) }] } = true ∧
      cleanRun 1 { idleWith 0 3 5 0 with inputs := [{ rst := false, req := some (writeReq .cmd 5) }] } = false := by
  decide

/-- R148: a reset edge does not wipe a dropped write off a run; an idle reset edge is clean. -/
theorem test_clean_reset_edge :
    cleanRun 1 { idleWith 0 3 5 0 with werr := true, inputs := [{ rst := true, req := none }] } = false ∧
      cleanRun 1 { idleWith 0 3 5 0 with inputs := [{ rst := true, req := none }] } = true := by decide

/-! ## Witnesses: concrete states and operands that meet the hypotheses of the statements, clause by clause -/

theorem witness_DecodeInvertsEncode :
    rowSelects 0x0A (opcodeRow .sprp64) = true ∧ (∃ i, decode 0x12 = .ok i) ∧ ¬ (0x0B : Word).toNat % 2 ^ 8 ∈
      [0, 1, 2, 3, 4, 5, 6, 7, 8, 9, 10, 0x10, 0x11, 0x12] := by
  exact ⟨by decide, ⟨.sprp32, by decide⟩, by decide⟩

theorem witness_ReservedWordsEndWithEillegal :
    (0x100 : Word).toNat / 2 ^ 8 ≠ 0 ∧
      ((0x0B : Word).toNat / 2 ^ 8 = 0 ∧ 0x0B ≤ (0x0B : Word).toNat % 2 ^ 8 ∧ (0x0B : Word).toNat % 2 ^ 8 ≤ 0x0F) ∧
      ((0x0F : Word).toNat / 2 ^ 8 = 0 ∧ 0x0B ≤ (0x0F : Word).toNat % 2 ^ 8 ∧ (0x0F : Word).toNat % 2 ^ 8 ≤ 0x0F) ∧
      ((0x13 : Word).toNat / 2 ^ 8 = 0 ∧ 0x13 ≤ (0x13 : Word).toNat % 2 ^ 8) ∧
      ((0xFF : Word).toNat / 2 ^ 8 = 0 ∧ 0x13 ≤ (0xFF : Word).toNat % 2 ^ 8) ∧
      decode 0x0B = .error .reservedOpcode ∧ State.reset.busy = false := by decide

theorem witness_ByteLanesAreLittleEndian : (0 < 8 ∧ 7 < 8) ∧ byteLane 0x0123_4567_89AB_CDEF 7 = 0x01 := by decide

theorem witness_StepRunsTheCommandWritten :
    (State.reset.present (writeReq .cmd 0x1)).inputs = { rst := false, req := some (writeReq .cmd 0x1) } :: [] ∧
      decode 0x1 = .ok .wmul ∧ (State.reset.present (writeReq .cmd 0x1)).busy = false ∧
      ((wmulInFlight 1).present (writeReq .cmd 0x1)).inputs =
        { rst := false, req := some (writeReq .cmd 0x1) } :: [] ∧
      ((wmulInFlight 1).present (writeReq .cmd 0x1)).busy = true := by decide

theorem witness_ResetEdgeGivesResetValues :
    { wmulInFlight 2 with inputs := [{ rst := true, req := none }] }.inputs =
      { rst := true, req := none } :: [] := by decide

theorem witness_CompletionWritesAllOutputsTogether :
    nextCycle State.reset = { rst := false, req := none } ∧ State.reset.busy = false ∧
      nextCycle (wmulInFlight 1) = { rst := false, req := none } ∧
      (wmulInFlight 1).inFlight = some { op := 1, outcome := .result 15 0, remaining := 1 } ∧
      nextCycle (ctxInFlight 1) = { rst := false, req := none } ∧
      (ctxInFlight 1).inFlight =
        some { op := 4, outcome := .context 0xA3A0_FD5C_5F02_A3A1 0x3D, remaining := 1 } ∧
      nextCycle (wmulInFlight 2) = { rst := false, req := none } ∧
      (wmulInFlight 2).inFlight = some { op := 1, outcome := .result 15 0, remaining := 2 } := by decide

theorem witness_TransactionPrecedesCompletion :
    (wmulInFlight 1).inFlight = some { op := 1, outcome := .result 15 0, remaining := 1 } ∧
      ((wmulInFlight 1).present (readReq .resLo)).inputs = { rst := false, req := some (readReq .resLo) } :: [] ∧
      Guarded .e ∧
      ((wmulInFlight 1).present (writeReq .e 9)).inputs = { rst := false, req := some (writeReq .e 9) } :: [] ∧
      ((wmulInFlight 1).present (writeReq .irqStat 1)).inputs =
        { rst := false, req := some (writeReq .irqStat 1) } :: [] := by
  unfold Guarded
  decide

/-- One cycle left with a reset in the edge after, and three cycles left with an idle bus. -/
theorem witness_CommandInFlightCompletesInTime :
    (∀ c ∈ ({ wmulInFlight 1 with inputs := [{ rst := false, req := none }, { rst := true, req := none }] } :
        State).inputs.take 1, c.rst = false) ∧
      (wmulInFlight 1).inFlight = some { op := 1, outcome := .result 15 0, remaining := 1 } ∧
      (∀ c ∈ (ctxInFlight 3).inputs.take 3, c.rst = false) ∧
      (ctxInFlight 3).inFlight =
        some { op := 4, outcome := .context 0xA3A0_FD5C_5F02_A3A1 0x3D, remaining := 3 } := by decide

theorem witness_AcceptedCommandFrame : (at97 1 2 3).busy = false ∧ State.reset.latChoices = [] := by decide

theorem witness_WritesWhileBusyAreDropped :
    (wmulInFlight 2).busy = true ∧ Guarded .cmd ∧ Guarded .n ∧ Guarded .a ∧ Guarded .b ∧ Guarded .e := by
  unfold Guarded
  decide

/-- Two blocks that differ in a result, in WERR and in the schedule launch the same MONT_MUL. -/
theorem witness_OutcomeDependsOnOperandsOnly :
    SameOperands (at97 0xE 0x27 0) { at97 0xE 0x27 0 with resLo := 9, werr := true, latChoices := [5] } ∧
      (∃ t, writeCmd 0x8 (at97 0xE 0x27 0) = .next t) ∧
      (∃ t, writeCmd 0x8 { at97 0xE 0x27 0 with resLo := 9, werr := true, latChoices := [5] } = .next t) ∧
      (at97 0xE 0x27 0).busy = false ∧
      ({ at97 0xE 0x27 0 with resLo := 9, werr := true, latChoices := [5] } : State).busy = false :=
  ⟨⟨rfl, rfl, rfl, rfl, rfl, rfl, rfl⟩, ⟨_, rfl⟩, ⟨_, rfl⟩, rfl, rfl⟩

theorem witness_ErrorsFollowThePriorityTable : State.reset.busy = false ∧ ∀ i, (0xFF : Word) ≠ encode i := by
  refine ⟨by decide, fun i => ?_⟩
  cases i <;> decide

theorem witness_ErrorsArePrecise :
    (idleWith 0 1 2 3).busy = false ∧
      ∃ t, writeCmd 0x05 (idleWith 0 1 2 3) = .next t ∧ t.err = true := ⟨rfl, _, rfl, rfl⟩

theorem witness_NopCompletesAtOnce :
    State.reset.busy = false ∧ (wmulInFlight 1).busy = true ∧
      ((0x100 : Word).toNat % 2 ^ 8 = 0 ∧ (0x100 : Word).toNat / 2 ^ 8 ≠ 0) := by decide

/-- WMUL and MONT_INV ask only that no command is in flight. -/
theorem witness_WmulGivesTheExactProduct : (idleWith 0 0xFFFF_FFFF_FFFF_FFFF 2 0).busy = false := by decide

theorem witness_MontInvCompletesForEveryN : (idleWith 2 0 0 0).busy = false := by decide

theorem witness_MontOneCompletesForNonzeroN :
    ((idleWith 1 0 0 0).busy = false ∧ (idleWith 1 0 0 0).regN ≠ 0) ∧
      ((idleWith 0 0 0 0).busy = false ∧ (idleWith 0 0 0 0).regN = 0) := by decide

theorem witness_MontCtxCompletesForOddN :
    ((idleWith 1 0 0 0).busy = false ∧ (idleWith 1 0 0 0).regN.toNat % 2 = 1) ∧
      ((idleWith 0 0 0 0).busy = false ∧ (idleWith 0 0 0 0).regN.toNat % 2 = 0) := by decide

theorem witness_ToMontCompletesForNonzeroN :
    ((idleWith 1 7 0 0).busy = false ∧ (idleWith 1 7 0 0).regN ≠ 0) ∧
      ((idleWith 0 7 0 0).busy = false ∧ (idleWith 0 7 0 0).regN = 0) := by decide

theorem witness_FromMontCompletesWithContext :
    ((at97 0xE 0 0).busy = false ∧ (at97 0xE 0 0).ctxValid = true) ∧
      ((idleWith 0x61 0xE 0 0).busy = false ∧ (idleWith 0x61 0xE 0 0).ctxValid = false) := by decide

theorem witness_MontReduceCompletesWithContext :
    ((at97 0 0xC8 0).busy = false ∧ (at97 0 0xC8 0).ctxValid = true) ∧
      ((idleWith 0x61 1 0 0).busy = false ∧ (idleWith 0x61 1 0 0).ctxValid = false) := by decide

theorem witness_MontMulCompletesWithContext :
    ((at97 0xE 0x27 0).busy = false ∧ (at97 0xE 0x27 0).ctxValid = true) ∧
      ((idleWith 0x61 0xE 0x27 0).busy = false ∧ (idleWith 0x61 0xE 0x27 0).ctxValid = false) := by decide

theorem witness_MontPowCompletesWithContext :
    ((at97 0x56 0 0).busy = false ∧ (at97 0x56 0 0).ctxValid = true ∧ (at97 0x56 0 0).regE = 0) ∧
      ((idleWith 0x61 0x56 0 0x60).busy = false ∧ (idleWith 0x61 0x56 0 0x60).ctxValid = false) := by decide

/-- N = 97 with its context meets the context invariant too; N = 3 is the first in the domain; N = 1 is below it. -/
theorem witness_Sprp64CompletesWithTheVerdict :
    ((at97 2 0 0).busy = false ∧ (at97 2 0 0).ctxValid = true ∧ 3 ≤ (at97 2 0 0).regN.toNat ∧
        ContextInv (at97 2 0 0)) ∧
      3 ≤ (withCtx (idleWith 3 2 0 0) 0xAAAA_AAAA_AAAA_AAAB 1).regN.toNat ∧
      ((idleWith 2 0 0 0).busy = false ∧ (idleWith 2 0 0 0).ctxValid = false) ∧
      ((withCtx (idleWith 1 2 0 0) 1 1).busy = false ∧ (withCtx (idleWith 1 2 0 0) 1 1).ctxValid = true ∧
        (withCtx (idleWith 1 2 0 0) 1 1).regN.toNat < 3) := by
  unfold ContextInv
  decide +kernel

theorem witness_Mulmod32CompletesForNonzeroModulus :
    ((idleWith 1 3 5 0).busy = false ∧ (idleWith 1 3 5 0).regN.toNat % 2 ^ 32 ≠ 0) ∧
      ((idleWith 0x1_0000_0000 3 5 0).busy = false ∧ (idleWith 0x1_0000_0000 3 5 0).regN.toNat % 2 ^ 32 = 0) := by
  decide

theorem witness_Powmod32CompletesForNonzeroModulus :
    ((idleWith 1 0 0 0).busy = false ∧ (idleWith 1 0 0 0).regN.toNat % 2 ^ 32 ≠ 0) ∧
      ((idleWith 0x1_0000_0000 2 0 3).busy = false ∧ (idleWith 0x1_0000_0000 2 0 3).regN.toNat % 2 ^ 32 = 0) := by
  decide

theorem witness_Sprp32CompletesWithTheVerdict :
    ((idleWith 3 2 0 0).busy = false ∧ (idleWith 3 2 0 0).regN.toNat % 2 ^ 32 % 2 = 1 ∧
        3 ≤ (idleWith 3 2 0 0).regN.toNat % 2 ^ 32) ∧
      ((idleWith 0x800 2 0 0).busy = false ∧ (idleWith 0x800 2 0 0).regN.toNat % 2 ^ 32 % 2 = 0) ∧
      ((idleWith 1 2 0 0).busy = false ∧ (idleWith 1 2 0 0).regN.toNat % 2 ^ 32 < 3) := by decide

/-- V141 and V125: N = 0x1000007FF and N = 0x7FF agree in their low 32 bits. -/
theorem witness_ThirtyTwoBitCommandsIgnoreUpperBits :
    ((idleWith 0x7FF 2 0 0).busy = false ∧ (idleWith 0x1_0000_07FF 2 0 0).busy = false ∧
        (idleWith 0x7FF 2 0 0).regN.toNat % 2 ^ 32 = (idleWith 0x1_0000_07FF 2 0 0).regN.toNat % 2 ^ 32) ∧
      (∃ t, exec .sprp32 (idleWith 0x7FF 2 0 0) = .next t) ∧
      ∃ t, exec .sprp32 (idleWith 0x1_0000_07FF 2 0 0) = .next t :=
  ⟨by decide, ⟨_, rfl⟩, ⟨_, rfl⟩⟩

/-- N = 1; the start value 11 of N = 3 with k = -1 and j = 5; a right inverse with k = 0 and j = 64; n = 0, even. -/
theorem witness_HenselLiftingInvertsOddN :
    (1 < 2 ^ 64 ∧ 1 % 2 = 1) ∧ (11 * 3 : Int) % 2 ^ 64 = (1 - (-1) * 2 ^ 5) % 2 ^ 64 ∧
      (1 * 1 : Int) % 2 ^ 64 = (1 - 0 * 2 ^ 64) % 2 ^ 64 ∧ 0 % 2 = 0 := by decide

theorem witness_ReductionDividesByTheRadix :
    (1 < 2 ^ 64 ∧ 0x60 < 2 ^ 64 ∧ 97 < 2 ^ 64 ∧ 97 % 2 = 1 ∧ 0x60 < 97) ∧
      (0 < 2 ^ 64 ∧ 97 < 2 ^ 64 ∧ 97 % 2 = 1 ∧ 97 ≤ 97) := by decide

theorem witness_MontgomeryProductOfForms :
    (97 < 2 ^ 64 ∧ 97 % 2 = 1 ∧ 96 < 97 ∧ 0 < 97) ∧ (1 < 2 ^ 64 ∧ 1 % 2 = 1 ∧ 0 < 1) := by decide

theorem witness_FromMontUndoesToMont : 1 < 2 ^ 64 ∧ 1 % 2 = 1 ∧ 2 ^ 64 - 1 < 2 ^ 64 := by decide

theorem witness_MontgomeryOneIsRadixModN : (0 < 3 ∧ 3 < 2 ^ 64 ∧ ¬ 3 ∣ 2 ^ 64) ∧ (0 < 1 ∧ 1 < 2 ^ 64 ∧ 1 ∣ 2 ^ 64) := by
  decide

theorem witness_MontgomeryPowerOfForms : 3 < 2 ^ 64 ∧ 3 % 2 = 1 ∧ 3 ≤ 3 ∧ 2 ^ 64 - 1 < 2 ^ 64 := by decide

theorem witness_NegOneIsTheFormOfMinusOne :
    (1 < 2 ^ 64 ∧ 1 ≤ 1) ∧ (0 < 2 ^ 64 ∧ 2 ^ 64 - 1 < 2 ^ 64 ∧ 0 < 2 ^ 64 - 1) ∧ (3 < 2 ^ 64 ∧ 3 % 2 = 1 ∧ 3 ≤ 3) := by
  decide

theorem witness_Sprp64AgreesWithSprp32 :
    3 < 2 ^ 32 ∧ 2 ^ 32 - 1 < 2 ^ 32 ∧ 3 % 2 = 1 ∧ 3 ≤ 3 ∧ (2 ^ 32 - 1) % 2 = 1 := by decide

theorem witness_PrimesPassEveryRound :
    (3 < 2 ^ 32 ∧ 0 < 2 ^ 32 ∧ 3 ≤ 3 ∧ Nat.Prime 3) ∧ (97 < 2 ^ 64 ∧ 2 ^ 64 - 1 < 2 ^ 64 ∧ 3 ≤ 97 ∧ Nat.Prime 97) := by
  norm_num

theorem witness_TransactionsAddressTheWindow :
    mappedOffset (readReq .id) = some 0 ∧ mappedOffset { readReq .id with off := 0xFFF } = some 0xFFF ∧
      mappedOffset { readReq .id with off := 0x1000 } = none ∧ mappedOffset { readReq .id with off := -1 } = none ∧
      regAt 0x60 = some .irqStat ∧ regAt 0x68 = none := by decide

/-- A read of 4 bytes, and a misaligned write of 8. -/
theorem witness_NarrowOrMisalignedGetsSlverr :
    (mappedOffset { readReq .status with size := 4 } = some 0x10 ∧ 4 ≠ 8) ∧
      (mappedOffset { writeReq .id 1 with off := 0xFFF } = some 0xFFF ∧ 0xFFF % 8 ≠ 0) := by decide

/-- The first and the last offset without a register, and the addresses on both sides of the window. -/
theorem witness_OffsetsWithoutRegisterGetDecerr :
    (mappedOffset { readReq .id with off := 0x68 } = some 0x68 ∧ 0x68 % 8 = 0 ∧ 0x68 ≤ 0x68 ∧ 0x68 ≤ 0xFF8) ∧
      (mappedOffset { readReq .id with off := 0xFF8 } = some 0xFF8 ∧ 0xFF8 % 8 = 0 ∧ 0x68 ≤ 0xFF8 ∧ 0xFF8 ≤ 0xFF8) ∧
      ({ readReq .id with off := -1 } : Req).off < 0 ∧ 0x1000 ≤ ({ readReq .id with off := 0x1000 } : Req).off := by
  decide

theorem witness_ReadOnlyWritesGetSlverr :
    (Reg.id = .id ∨ Reg.id = .ninv ∨ Reg.id = .one ∨ Reg.id = .resLo ∨ Reg.id = .resHi) ∧
      (Reg.resHi = .id ∨ Reg.resHi = .ninv ∨ Reg.resHi = .one ∨ Reg.resHi = .resLo ∨ Reg.resHi = .resHi) := by decide

/-- A write to ID from reset gets an error response. -/
theorem witness_RefusedTransactionsHaveNoEffect :
    State.reset.reply = none ∧
      ∃ t a, transact (writeReq .id 5) State.reset = .next t ∧ t.reply = some a ∧ a.resp ≠ .okay :=
  ⟨rfl, _, _, rfl, rfl, by decide⟩

theorem witness_WriteToNInvalidatesTheContext :
    (at97 0 0 0).busy = false ∧ needsContext .fromMont = true ∧ needsContext .montReduce = true ∧
      needsContext .montMul = true ∧ needsContext .montPow = true ∧ needsContext .sprp64 = true := by decide

theorem witness_WritesToABEChangeOnlyThatRegister : (at97 1 2 3).busy = false := by decide

theorem witness_ReadAfterWriteReturnsTheValue : (at97 1 2 3).busy = false ∧ Reg.a ≠ .e ∧ Reg.a ≠ .status := by decide

/-- The ends of the reserved bits, and a state with each error and with none. -/
theorem witness_StatusWordLayout :
    (5 ≤ 5 ∧ 5 ≤ 7 ∧ 5 ≤ 7 ∧ 7 ≤ 7) ∧ (at97 0 0 0).error = none ∧
      ∀ e : CmdError, ({ at97 0 0 0 with error := some e } : State).error = some e :=
  ⟨by decide, rfl, fun _ => rfl⟩

/-- No error; each end of the error codes; a launch whose checks pass. -/
theorem witness_ErrcodeIsZeroExactlyWithoutError :
    (readReg .status (at97 0 0 0)).getLsbD 2 = false ∧
      (readReg .status { at97 0 0 0 with error := some .eillegal }).getLsbD 2 = true ∧
      (readReg .status { at97 0 0 0 with error := some .edomain }).getLsbD 2 = true ∧
      ((at97 0 0 0).busy = false ∧ firstFailing (checksOf .sprp64 (at97 0 0 0)) = none) ∧
      ∃ t, exec .sprp64 (at97 0 0 0) = .next t :=
  ⟨by decide, by decide, by decide, by decide, _, rfl⟩

/-- MONT_CTX of N = 97 in flight meets the invariant: the record is the one its launch made. -/
theorem witness_ctxInFlight_inv (k : Nat) : BlockInv (ctxInFlight (k + 1)) := by
  refine ⟨⟨fun _ => rfl, fun h => ?_, fun r h => ?_⟩, fun r h => ?_, fun h => ?_⟩
  · exact absurd h (by simp [State.err, ctxInFlight, idleWith, State.reset])
  · obtain rfl : _ = r := Option.some.inj h
    exact Nat.le_add_left 1 k
  · obtain rfl : _ = r := Option.some.inj h
    have h : montCtxOutcome (ctxInFlight (k + 1)).idle = .ok (.context 0xA3A0_FD5C_5F02_A3A1 0x3D) := by
      show montCtxOutcome (idleWith 0x61 0 0 0) = _
      decide +kernel
    refine ⟨.montCtx, launched .montCtx (ctxInFlight (k + 1)).idle (.context 0xA3A0_FD5C_5F02_A3A1 0x3D), rfl, rfl, ?_,
      _, rfl, rfl⟩
    exact (completesWith (i := .montCtx) (by decide) rfl h).1
  · exact absurd h (by simp [ctxInFlight, idleWith, State.reset])

/-- N = 97 with its context, idle, meets the invariant. -/
theorem witness_at97_inv : BlockInv (at97 1 2 3) := by
  refine ⟨⟨by decide, by decide, fun r h => nomatch h⟩, fun r h => (nomatch h), ?_⟩
  unfold ContextInv
  decide +kernel

theorem witness_StepKeepsTheInvariant :
    BlockInv (ctxInFlight 1) ∧ (∃ t, step (ctxInFlight 1) = .next t) ∧
      BlockInv (at97 1 2 3) ∧ ∃ t, step (at97 1 2 3) = .next t :=
  ⟨witness_ctxInFlight_inv 0, ⟨_, rfl⟩, witness_at97_inv, ⟨_, rfl⟩⟩

theorem witness_OnlyTheHostWritesOperands :
    (nextCycle ((idleWith 0 0 0 0).present (writeReq .n 5))).rst = false ∧
      regAfter .n (edge (writeReq .n 5) (idleWith 0 0 0 0)) = some 5 ∧
      regAfter .a (edge (writeReq .a 5) (idleWith 0 0 0 0)) = some 5 ∧
      regAfter .b (edge (writeReq .b 5) (idleWith 0 0 0 0)) = some 5 ∧
      regAfter .e (edge (writeReq .e 5) (idleWith 0 0 0 0)) = some 5 ∧
      regAfter .cmd (edge (writeReq .cmd 5) (idleWith 0 0 0 0)) = some 5 := by decide

/-- MONT_CTX completes and writes NINV; a write to N clears CTX_VALID. -/
theorem witness_OnlyMontCtxWritesTheContext :
    (BlockInv (ctxInFlight 1) ∧ (nextCycle (ctxInFlight 1)).rst = false ∧
        ∃ t, step (ctxInFlight 1) = .next t ∧ t.ninv ≠ (ctxInFlight 1).ninv ∧ t.ctxValid = true ∧
          (ctxInFlight 1).ctxValid = false) ∧
      ∃ t, step ((at97 1 2 3).present (writeReq .n 0x61)) = .next t ∧ t.ctxValid = false ∧
        ((at97 1 2 3).present (writeReq .n 0x61)).ctxValid = true :=
  ⟨⟨witness_ctxInFlight_inv 0, rfl, _, rfl, by decide, rfl, rfl⟩, _, rfl, rfl, rfl⟩

theorem witness_ResultsChangeOnlyAtCompletion :
    (nextCycle (wmulInFlight 1)).rst = false ∧
      ∃ t, step (wmulInFlight 1) = .next t ∧ t.resLo ≠ (wmulInFlight 1).resLo := ⟨rfl, _, rfl, by decide⟩

/-- A write to A while BUSY sets WERR; a write of bit 4 to STATUS clears it. -/
theorem witness_WerrHasOneCause :
    (∃ t, step ((wmulInFlight 2).present (writeReq .a 7)) = .next t ∧ t.werr = true ∧
        ((wmulInFlight 2).present (writeReq .a 7)).werr = false) ∧
      ∃ t, step ({ at97 1 2 3 with werr := true }.present (writeReq .status 0x10)) = .next t ∧ t.werr = false :=
  ⟨⟨_, rfl, rfl, rfl⟩, _, rfl, rfl⟩

/-- A completion; a NOP; a write of bit 0 to IRQ_STAT. -/
theorem witness_EveryCompletionRaisesDoneIp :
    (∃ t, step (wmulInFlight 1) = .next t ∧ (wmulInFlight 1).busy = true ∧ t.busy = false) ∧
      (∃ t, step ((at97 1 2 3).present (writeReq .cmd 0)) = .next t ∧ t.busy = false ∧
        CarriesWrite (nextCycle ((at97 1 2 3).present (writeReq .cmd 0))) .cmd 0) ∧
      ∃ t, step ({ at97 1 2 3 with doneIp := true }.present (writeReq .irqStat 1)) = .next t ∧ t.doneIp = false :=
  ⟨⟨_, rfl, rfl, rfl⟩, ⟨_, rfl, rfl, _, rfl, rfl, rfl, rfl, rfl⟩, _, rfl, rfl⟩

end Sys2Proof.Tests
end

/-! PROOFS. The register file, the bus writes to it and the block's invariant (10_state.md). -/

namespace Sys2Proof.Machine

open Sys2Proof.Claims

/-! ### The decoder and the outcomes -/

/-- A word that decodes to a command is that command's word (R112). -/
theorem eq_encode_of_decode? {c : Word} {i : Instr} (h : decode? c = some i) : c = encode i := by
  have full_mask : c &&& 0xFFFF_FFFF_FFFF_FFFF = c := BitVec.and_allOnes
  unfold decode? decode at h
  cases hf : opcodeTable.find? (rowSelects c) with
  | none =>
    rw [hf] at h
    cases hr : rsvdClear c <;> simp [hr] at h
  | some row =>
    simp only [hf, Option.some.injEq] at h
    obtain ⟨j, -, rfl⟩ := List.mem_map.1 (List.mem_of_find?_eq_some hf)
    have hsel : (c &&& 0xFFFF_FFFF_FFFF_FFFF) = encode j := by
      simpa [rowSelects, opcodeRow] using List.find?_some hf
    rw [← full_mask, hsel, ← h]
    rfl

/-- The outcome of a command reads N, A, B, E, NINV, ONE and CTX_VALID alone (R143). -/
theorem outcomeOf_congr {s t : State} (h : SameOperands s t) (i : Instr) : outcomeOf i s = outcomeOf i t := by
  obtain ⟨hN, hA, hB, hE, hninv, hone, hctx⟩ := h
  cases i <;>
    simp only [outcomeOf, wmulOutcome, montInvOutcome, montOneOutcome, montCtxOutcome, toMontOutcome, fromMontOutcome,
      montReduceOutcome, montMulOutcome, montPowOutcome, sprp64Outcome, mulmod32Outcome, powmod32Outcome,
      sprp32Outcome, hN, hA, hB, hE, hninv, hone, hctx]

/-- Only MONT_CTX writes the context, and what it writes is the context of an odd N (R228). -/
theorem outcomeOf_context {i : Instr} {s : State} {ninv one : Word} (h : outcomeOf i s = .ok (.context ninv one)) :
    i = .montCtx ∧ full s.regN % 2 = 1 ∧ ninv = toWord (montInv (full s.regN)) ∧
      one = toWord (montOne (full s.regN)) := by
  cases i
  case montCtx =>
    simp only [outcomeOf, montCtxOutcome] at h
    split at h
    · cases h
    · next hodd =>
      cases h
      exact ⟨rfl, by omega, rfl, rfl⟩
  case nop | wmul | montInv => cases h
  all_goals
    simp only [outcomeOf, montOneOutcome, toMontOutcome, fromMontOutcome, montReduceOutcome, montMulOutcome,
      montPowOutcome, sprp64Outcome, mulmod32Outcome, powmod32Outcome, sprp32Outcome, resultOf] at h
    split_ifs at h
    all_goals cases h

/-- Without a context, a command that needs it fails its first check (R41, R263). -/
theorem outcomeOf_enoctx {i : Instr} {s : State} (hi : needsContext i = true) (hc : s.ctxValid = false) :
    outcomeOf i s = .error .enoctx := by
  cases i
  case fromMont => simp [outcomeOf, fromMontOutcome, hc]
  case montReduce => simp [outcomeOf, montReduceOutcome, hc]
  case montMul => simp [outcomeOf, montMulOutcome, hc]
  case montPow => simp [outcomeOf, montPowOutcome, hc]
  case sprp64 => simp [outcomeOf, sprp64Outcome, hc]
  all_goals cases hi

/-- Whatever a CMD write does at its edge, it keeps what an outcome may depend on (R141, R143). -/
theorem exec_sameOperands {i : Instr} {s t : State} (h : exec i s = .next t) : SameOperands s t := by
  rcases exec_cases i s with ⟨-, e⟩ | ⟨-, -, e⟩ | ⟨-, -, err, -, e⟩ | ⟨-, -, w, -, e⟩ <;>
    (rw [e, Host.Outcome.next.injEq] at h; subst h; exact ⟨rfl, rfl, rfl, rfl, rfl, rfl, rfl⟩)

/-- Two idle blocks in which a command has the same outcome launch it with the same error and the same writes. -/
theorem exec_sameEnd {i : Instr} {s₁ s₂ t₁ t₂ : State} (hi : i ≠ .nop) (hb₁ : s₁.busy = false)
    (hb₂ : s₂.busy = false) (ho : outcomeOf i s₁ = outcomeOf i s₂) (h₁ : exec i s₁ = .next t₁)
    (h₂ : exec i s₂ = .next t₂) :
    t₁.error = t₂.error ∧ t₁.inFlight.map InFlight.outcome = t₂.inFlight.map InFlight.outcome := by
  rw [exec_eq_issue hi] at h₁ h₂
  rw [ho] at h₁
  cases hw : outcomeOf i s₂ with
  | error e =>
    rw [hw, issue_error hb₁, Host.Outcome.next.injEq] at h₁
    rw [hw, issue_error hb₂, Host.Outcome.next.injEq] at h₂
    subst h₁ h₂
    simp [endWithError_eq, (not_busy_iff _).1 hb₁, (not_busy_iff _).1 hb₂]
  | ok w =>
    rw [hw, issue_ok hb₁, Host.Outcome.next.injEq] at h₁
    rw [hw, issue_ok hb₂, Host.Outcome.next.injEq] at h₂
    subst h₁ h₂
    exact ⟨rfl, rfl⟩

/-- The 32-bit commands read the low 32 bits of N, A, B and E alone (R39, R114). -/
theorem outcomeOf_congr_low32 {i : Instr} {s t : State} (hi : i = .mulmod32 ∨ i = .powmod32 ∨ i = .sprp32)
    (hN : low32 s.regN = low32 t.regN) (hA : low32 s.regA = low32 t.regA) (hB : low32 s.regB = low32 t.regB)
    (hE : low32 s.regE = low32 t.regE) : outcomeOf i s = outcomeOf i t := by
  rcases hi with rfl | rfl | rfl
  · simp only [outcomeOf, mulmod32Outcome, hN, hA, hB]
  · simp only [outcomeOf, powmod32Outcome, hN, hA, hE]
  · simp only [outcomeOf, sprp32Outcome, hN, hA]

/-! ### The flag words -/

theorem flagAt_getLsbD {i : Nat} (hi : i < 64) (f : Bool) (k : Nat) :
    (flagAt i f).getLsbD k = (decide (k = i) && f) := by
  cases f with
  | false => simp [flagAt]
  | true =>
    rw [flagAt, if_pos rfl, BitVec.getLsbD_ofNat, Nat.testBit_two_pow, Bool.and_true]
    by_cases h : k = i
    · simp [h, hi]
    · simp [h, Ne.symm h]

/-- Every bit of the STATUS word (R35). -/
theorem statusWord_getLsbD (s : State) (k : Nat) :
    (statusWord s).getLsbD k =
      ((decide (k = 0) && s.busy) || (decide (k = 1) && s.done) || (decide (k = 2) && s.err) ||
        (decide (k = 3) && s.ctxValid) || (decide (k = 4) && s.werr) ||
          (decide (8 ≤ k) && s.errCode.getLsbD (k - 8))) := by
  have code : (s.errCode.setWidth 64 <<< 8).getLsbD k = (decide (8 ≤ k) && s.errCode.getLsbD (k - 8)) := by
    rw [BitVec.getLsbD_shiftLeft, BitVec.getLsbD_setWidth]
    have low : (!decide (k < 8)) = decide (8 ≤ k) := by simp [← decide_not]
    by_cases h : k < 12
    · simp [low, show k < 64 by omega, show k - 8 < 64 by omega]
    · simp [BitVec.getLsbD_of_ge s.errCode (k - 8) (by omega)]
  simp only [statusWord, BitVec.getLsbD_or, code]
  rw [flagAt_getLsbD, flagAt_getLsbD, flagAt_getLsbD, flagAt_getLsbD, flagAt_getLsbD] <;> norm_num

/-- From bit 8 on, the STATUS word is ERRCODE (R35). -/
theorem statusWord_div (s : State) : (statusWord s).toNat / 2 ^ 8 = s.errCode.toNat := by
  have shifted : statusWord s >>> 8 = s.errCode.setWidth 64 := by
    ext k hk
    have above : ∀ m < 8, 8 + k ≠ m := by omega
    rw [← BitVec.getLsbD_eq_getElem, ← BitVec.getLsbD_eq_getElem, BitVec.getLsbD_ushiftRight, statusWord_getLsbD,
      BitVec.getLsbD_setWidth]
    simp [hk, above]
  calc (statusWord s).toNat / 2 ^ 8 = (statusWord s >>> 8).toNat := by
        rw [BitVec.toNat_ushiftRight, Nat.shiftRight_eq_div_pow]
    _ = s.errCode.toNat := by rw [shifted, BitVec.toNat_setWidth_of_le (by norm_num)]

/-- A flag that is bit 0 of its word is all of the word. -/
theorem flagAt_zero (f : Bool) : (flagAt 0 f).getLsbD 0 = f ∧ (flagAt 0 f).toNat / 2 = 0 := by
  cases f <;> decide

/-! ### Reset -/

/-- Every register but ID reads as 0 after a reset edge (R50). -/
theorem readReg_resetEdge (s : State) {r : Reg} (hr : r ≠ .id) : readReg r s.resetEdge = 0 := by
  cases r
  case id => exact absurd rfl hr
  case status => simp [readReg, statusWord, flagAt, State.err, State.errCode]
  all_goals rfl

/-- A step whose pins carry `rst` = 1 and no transaction is the reset edge (R300). -/
theorem step_reset {s : State} {rest : List Cycle} (h : s.inputs = { rst := true, req := none } :: rest) :
    step s = .next s.takeCycle.resetEdge := by
  simp [step, clockEdge, nextCycle, h]

/-! ### Writes of one bit -/

theorem writeStatus_eq (v : Word) (s : State) : writeStatus v s = { s with werr := s.werr && !v.getLsbD 4 } := by
  unfold writeStatus bitOf
  split
  · next hv => rw [hv, Bool.not_true, Bool.and_false, State.clearWerr]
  · next hv => rw [Bool.eq_false_of_not_eq_true hv, Bool.not_false, Bool.and_true]

theorem writeIrqStat_eq (v : Word) (s : State) : writeIrqStat v s = { s with doneIp := s.doneIp && !v.getLsbD 0 } := by
  unfold writeIrqStat bitOf
  split
  · next hv => rw [hv, Bool.not_true, Bool.and_false, State.clearDoneIp]
  · next hv => rw [Bool.eq_false_of_not_eq_true hv, Bool.not_false, Bool.and_true]

/-! ### What an edge without reset can change -/

theorem takeCycle_sameOperands (s : State) : SameOperands s s.takeCycle := ⟨rfl, rfl, rfl, rfl, rfl, rfl, rfl⟩

theorem KeepsCommand.sameOperands {s t : State} (h : KeepsCommand s t) : SameOperands s t :=
  ⟨h.regN.symm, h.regA.symm, h.regB.symm, h.regE.symm, h.ninv.symm, h.one.symm, h.ctxValid.symm⟩

/-- The guarded registers are CMD, N, A, B and E. -/
theorem readReg_guarded_congr {s t : State} {x : Reg} (hx : Guarded x) (hc : t.cmd = s.cmd) (h : SameOperands s t) :
    readReg x t = readReg x s := by
  obtain ⟨hN, hA, hB, hE, -⟩ := h
  rcases hx with rfl | rfl | rfl | rfl | rfl
  exacts [hc, hN.symm, hA.symm, hB.symm, hE.symm]

/-- A register that a host write is dropped at while BUSY = 1 changes at a write of a register only while BUSY = 0, and
only to the value written to it (R36, R146). -/
theorem WriteDoes.guarded {r x : Reg} {v : Word} {s t : State} (h : WriteDoes r v s t) (hx : Guarded x) :
    readReg x t = readReg x s ∨ (s.busy = false ∧ r = x ∧ readReg x t = v) := by
  have accepted (hb : s.busy = false) (hr : r = .cmd) (hc : t.cmd = v) (hop : SameOperands s t) :
      readReg x t = readReg x s ∨ (s.busy = false ∧ r = x ∧ readReg x t = v) := by
    obtain ⟨hN, hA, hB, hE, -⟩ := hop
    rcases hx with rfl | rfl | rfl | rfl | rfl
    exacts [.inr ⟨hb, hr, hc⟩, .inl hN.symm, .inl hA.symm, .inl hB.symm, .inl hE.symm]
  cases h
  case answered | dropped | clearsWerr | setsDoneIe | clearsDoneIp =>
    subst t
    exact .inl (readReg_guarded_congr hx rfl ⟨rfl, rfl, rfl, rfl, rfl, rfl, rfl⟩)
  case storesN hb hr h | storesA hb hr h | storesB hb hr h | storesE hb hr h =>
    subst hr h
    rcases hx with rfl | rfl | rfl | rfl | rfl <;> simp [readReg, hb]
  case illegal hb hr hv h => subst h; exact accepted hb hr rfl ⟨rfl, rfl, rfl, rfl, rfl, rfl, rfl⟩
  case nop hb hr hv h | errs hb hr _ _ hv _ _ h | launches hb hr _ _ hv _ _ h =>
    subst h
    exact accepted hb hr (eq_encode_of_decode? hv).symm ⟨rfl, rfl, rfl, rfl, rfl, rfl, rfl⟩

/-- No write of the host reaches NINV, ONE, RES_LO or RES_HI (R40, R42). -/
theorem WriteDoes.keepsResults {r : Reg} {v : Word} {s t : State} (h : WriteDoes r v s t) :
    t.ninv = s.ninv ∧ t.one = s.one ∧ t.resLo = s.resLo ∧ t.resHi = s.resHi := by
  cases h <;> subst t <;> exact ⟨rfl, rfl, rfl, rfl⟩

/-- The host changes CTX_VALID only by an accepted write to N, which clears it (R37). -/
theorem WriteDoes.ctxValid {r : Reg} {v : Word} {s t : State} (h : WriteDoes r v s t) :
    t.ctxValid = s.ctxValid ∨ (s.busy = false ∧ r = .n ∧ t.regN = v ∧ t.ctxValid = false) := by
  cases h
  case storesN hb hr h => subst h; exact .inr ⟨hb, hr, rfl, rfl⟩
  all_goals subst t; exact .inl rfl

/-- Everything an edge without reset can do: while BUSY = 0 at most an answer, or an aligned 64-bit write of a register;
while BUSY = 1 the host's share, which keeps the command, and then one cycle of the command or its completion. -/
inductive EdgeDoes (s t : State) : Prop
  | answers (hb : s.busy = false) (h : t = { s.takeCycle with reply := t.reply })
  | writes (hb : s.busy = false) (r : Reg) (v : Word) (hc : CarriesWrite (nextCycle s) r v)
      (hw : WriteDoes r v s.takeCycle t)
  | counts (f : InFlight) (u : State) (hf : s.inFlight = some f) (hk : 1 < f.remaining)
      (hh : hostPhase (nextCycle s).req s.takeCycle = .next u) (hu : KeepsCommand s.takeCycle u)
      (h : t = u.setInFlight { f with remaining := f.remaining - 1 })
  | completes (f : InFlight) (u : State) (hf : s.inFlight = some f) (hk : f.remaining ≤ 1)
      (hh : hostPhase (nextCycle s).req s.takeCycle = .next u) (hu : KeepsCommand s.takeCycle u)
      (h : t = u.complete f)

theorem step_edgeDoes {s t : State} (hr : (nextCycle s).rst = false) (h : step s = .next t) : EdgeDoes s t := by
  obtain ⟨u, hu, rfl⟩ := step_phases hr h
  rcases enginePhase_does hu with ⟨hb, e⟩ | ⟨f, hf, -, ⟨hk, e⟩ | ⟨hk, e⟩⟩
  · rw [e]
    rcases hostPhase_does hu with ha | ⟨q, r, hq, hkind, hsize, hoff, hw⟩
    · exact .answers hb ha
    · exact .writes hb r q.wdata ⟨q, hq, hkind, hsize, hoff, rfl⟩ hw
  · exact .completes f u hf hk hu (hostPhase_busy ((busy_iff _).2 ⟨f, hf⟩) hu) e
  · exact .counts f u hf hk hu (hostPhase_busy ((busy_iff _).2 ⟨f, hf⟩) hu) e

/-- At an edge without reset a guarded register changes only by an accepted write of the new value (R36, R146). -/
theorem EdgeDoes.guarded {s t : State} (h : EdgeDoes s t) {x : Reg} (hx : Guarded x) (hne : readReg x t ≠ readReg x s) :
    s.busy = false ∧ CarriesWrite (nextCycle s) x (readReg x t) := by
  cases h with
  | answers hb h =>
    rw [h] at hne
    exact absurd (readReg_guarded_congr hx rfl ⟨rfl, rfl, rfl, rfl, rfl, rfl, rfl⟩) hne
  | writes hb r v hc hw =>
    rcases hw.guarded hx with he | ⟨-, rfl, rfl⟩
    · exact absurd (he.trans (readReg_guarded_congr hx rfl (takeCycle_sameOperands s))) hne
    · exact ⟨hb, hc⟩
  | counts f u hf hk _ hu h =>
    subst h
    exact absurd (readReg_guarded_congr (t := u.setInFlight _) hx hu.cmd hu.sameOperands) hne
  | completes f u hf hk _ hu h =>
    have kept : readReg x (u.complete f) = readReg x u := by
      rcases hx with rfl | rfl | rfl | rfl | rfl <;> simp [readReg, complete_eq]
    rw [h, kept] at hne
    exact absurd (readReg_guarded_congr hx hu.cmd hu.sameOperands) hne

/-- At an edge without reset RES_LO and RES_HI change only where a command completes, to its result (R42, R144). -/
theorem EdgeDoes.results {s t : State} (h : EdgeDoes s t) (hne : t.resLo ≠ s.resLo ∨ t.resHi ≠ s.resHi) :
    ∃ f, s.inFlight = some f ∧ f.remaining ≤ 1 ∧ t.busy = false ∧ t.done = true ∧
      f.outcome = .result t.resLo t.resHi := by
  have same (hlo : t.resLo = s.resLo) (hhi : t.resHi = s.resHi) : False := hne.elim (· hlo) (· hhi)
  cases h with
  | answers hb h => exact (same (by rw [h]; rfl) (by rw [h]; rfl)).elim
  | writes hb r v hc hw =>
    obtain ⟨-, -, hlo, hhi⟩ := hw.keepsResults
    exact (same hlo hhi).elim
  | counts f u hf hk _ hu h => subst h; exact (same hu.resLo hu.resHi).elim
  | completes f u hf hk _ hu h =>
    subst h
    refine ⟨f, hf, hk, rfl, rfl, ?_⟩
    cases hw : f.outcome with
    | result lo hi => simp [complete_eq, hw]
    | context ninv one =>
      exact (same (by simpa [complete_eq, hw] using hu.resLo) (by simpa [complete_eq, hw] using hu.resHi)).elim

/-- At an edge without reset, NINV and ONE change and CTX_VALID rises only where a command completes whose outcome is a
context (R40, R228). -/
theorem EdgeDoes.contextSet {s t : State} (h : EdgeDoes s t)
    (hne : t.ninv ≠ s.ninv ∨ t.one ≠ s.one ∨ (t.ctxValid = true ∧ s.ctxValid = false)) :
    ∃ f ninv one, s.inFlight = some f ∧ f.outcome = .context ninv one ∧ t.busy = false := by
  have same (hninv : t.ninv = s.ninv) (hone : t.one = s.one) (hctx : t.ctxValid = true → s.ctxValid = true) :
      False := by
    rcases hne with h | h | ⟨h, h'⟩
    · exact h hninv
    · exact h hone
    · simp [hctx h] at h'
  cases h with
  | answers hb h => exact (same (by rw [h]; rfl) (by rw [h]; rfl) fun ht => by rwa [h] at ht).elim
  | writes hb r v hc hw =>
    obtain ⟨hninv, hone, -, -⟩ := hw.keepsResults
    refine (same hninv hone fun ht => ?_).elim
    rcases hw.ctxValid with he | ⟨-, -, -, hf⟩
    · exact he.symm.trans ht
    · simp [hf] at ht
  | counts f u hf hk _ hu h => subst h; exact (same hu.ninv hu.one hu.ctxValid.symm.trans).elim
  | completes f u hf hk _ hu h =>
    subst h
    cases hw : f.outcome with
    | context ninv one => exact ⟨f, ninv, one, hf, hw, rfl⟩
    | result lo hi =>
      refine (same ?_ ?_ fun ht => ?_).elim
      · simpa [complete_eq, hw] using hu.ninv
      · simpa [complete_eq, hw] using hu.one
      · exact hu.ctxValid.symm.trans (by simpa [complete_eq, hw] using ht)

/-- At an edge without reset CTX_VALID falls only by an accepted write to N (R37). -/
theorem EdgeDoes.contextCleared {s t : State} (h : EdgeDoes s t) (ht : t.ctxValid = false) (hs : s.ctxValid = true) :
    s.busy = false ∧ CarriesWrite (nextCycle s) .n t.regN := by
  have kept (hctx : t.ctxValid = s.ctxValid) : False := by simp [ht, hs] at hctx
  cases h with
  | answers hb h => exact (kept (by rw [h]; rfl)).elim
  | writes hb r v hc hw =>
    rcases hw.ctxValid with he | ⟨-, rfl, rfl, -⟩
    · exact (kept he).elim
    · exact ⟨hb, hc⟩
  | counts f u hf hk _ hu h => subst h; exact (kept hu.ctxValid).elim
  | completes f u hf hk _ hu h =>
    subst h
    cases hw : f.outcome with
    | result lo hi => exact (kept (by simpa [complete_eq, hw] using hu.ctxValid)).elim
    | context ninv one => simp [complete_eq, hw] at ht

/-! ### The invariant -/

/-- The record invariant in terms of outcomes: the command in flight is a command other than NOP, it is the one in CMD,
and its outcome is what it computes from the registers as they stand. -/
theorem recordInv_iff (s : State) :
    RecordInv s ↔ ∀ f, s.inFlight = some f →
      ∃ i, i ≠ .nop ∧ s.cmd = encode i ∧ f.op = opcode i ∧ outcomeOf i s = .ok f.outcome := by
  have idle (i : Instr) : outcomeOf i s = outcomeOf i s.idle :=
    outcomeOf_congr ⟨rfl, rfl, rfl, rfl, rfl, rfl, rfl⟩ i
  refine forall₂_congr fun f _ => ⟨?_, ?_⟩
  · rintro ⟨i, t, hc, hop, ht, f', hf', hw⟩
    rcases exec_cases i s.idle with ⟨hb, -⟩ | ⟨-, -, e⟩ | ⟨-, -, err, -, e⟩ | ⟨-, hi, w, ho, e⟩
    · cases hb
    all_goals rw [e, Host.Outcome.next.injEq] at ht; subst ht; cases hf'
    exact ⟨i, hi, hc, hop, by rw [idle, ho, ← hw]⟩
  · rintro ⟨i, hi, hc, hop, ho⟩
    refine ⟨i, launched i s.idle f.outcome, hc, hop, ?_, _, rfl, rfl⟩
    rw [exec_eq_issue hi, ← idle, ho, issue_ok rfl]

/-- The invariant speaks of CMD, the operands, the context, DONE, ERR and the record alone. -/
theorem BlockInv.congr {s t : State} (h : BlockInv s) (hc : t.cmd = s.cmd) (hop : SameOperands s t)
    (hd : t.done = s.done) (he : t.error = s.error) (hf : t.inFlight = s.inFlight) : BlockInv t := by
  obtain ⟨⟨hbusy, herr, hrem⟩, hrec, hctx⟩ := h
  refine ⟨⟨?_, ?_, ?_⟩, ?_, ?_⟩
  · simpa [State.busy, hf, hd] using hbusy
  · simpa [State.err, he, hd] using herr
  · simpa [hf] using hrem
  · rw [recordInv_iff] at hrec ⊢
    simpa only [hf, hc, outcomeOf_congr hop] using hrec
  · obtain ⟨hN, -, -, -, hninv, hone, hv⟩ := hop
    simpa only [ContextInv, hN, hninv, hone, hv] using hctx

/-- Without a command in flight, the invariant is that ERR stands only with DONE, and the context. -/
theorem blockInv_of_idle {s : State} (hf : s.inFlight = none) (he : s.err = true → s.done = true)
    (hc : ContextInv s) : BlockInv s := by
  refine ⟨⟨?_, he, ?_⟩, ?_, hc⟩ <;> simp [RecordInv, State.busy, hf]

theorem blockInv_resetEdge (s : State) : BlockInv s.resetEdge :=
  blockInv_of_idle rfl nofun nofun

theorem BlockInv.takeCycle {s : State} (h : BlockInv s) : BlockInv s.takeCycle :=
  h.congr rfl (takeCycle_sameOperands s) rfl rfl rfl

theorem BlockInv.keepsCommand {s t : State} (h : BlockInv s) (hk : KeepsCommand s t) : BlockInv t :=
  h.congr hk.cmd hk.sameOperands hk.done hk.error hk.inFlight

/-- A cycle of the command in flight that is not its last keeps the invariant (R144). -/
theorem BlockInv.count {s : State} {f : InFlight} (h : BlockInv s) (hf : s.inFlight = some f) (hk : 1 < f.remaining) :
    BlockInv (s.setInFlight { f with remaining := f.remaining - 1 }) := by
  obtain ⟨⟨hbusy, herr, -⟩, hrec, hctx⟩ := h
  refine ⟨⟨fun _ => hbusy ((busy_iff s).2 ⟨f, hf⟩), herr, ?_⟩, ?_, hctx⟩
  · rintro _ ⟨⟩
    exact Nat.le_sub_one_of_lt hk
  · rw [recordInv_iff] at hrec ⊢
    rintro _ ⟨⟩
    obtain ⟨i, hi, hc, hop, ho⟩ := hrec f hf
    exact ⟨i, hi, hc, hop, (outcomeOf_congr ⟨rfl, rfl, rfl, rfl, rfl, rfl, rfl⟩ i).trans ho⟩

/-- A completion keeps the invariant: a context it writes is the one of the N that stands (R144, R146, R228). -/
theorem BlockInv.complete {s : State} {f : InFlight} (h : BlockInv s) (hf : s.inFlight = some f) :
    BlockInv (s.complete f) := by
  obtain ⟨-, hrec, hctx⟩ := h
  refine blockInv_of_idle rfl nofun ?_
  cases hw : f.outcome with
  | result lo hi => simpa [ContextInv, complete_eq, hw] using hctx
  | context ninv one =>
    obtain ⟨i, -, -, -, ho⟩ := (recordInv_iff s).1 hrec f hf
    obtain ⟨-, hodd, rfl, rfl⟩ := outcomeOf_context (ho.trans (congrArg _ hw))
    simp [ContextInv, complete_eq, hw, hodd]

/-- A launch keeps the invariant (R140, R142). -/
theorem BlockInv.launch {s : State} {i : Instr} {w : Writes} (h : BlockInv s) (hi : i ≠ .nop)
    (ho : outcomeOf i s = .ok w) : BlockInv (launched i s w) := by
  obtain ⟨-, -, hctx⟩ := h
  refine ⟨⟨fun _ => rfl, nofun, ?_⟩, ?_, hctx⟩
  · rintro _ ⟨⟩
    exact one_le_latency s i
  · rw [recordInv_iff]
    rintro _ ⟨⟩
    exact ⟨i, hi, rfl, rfl, (outcomeOf_congr ⟨rfl, rfl, rfl, rfl, rfl, rfl, rfl⟩ i).trans ho⟩

/-- A host write of a register while BUSY = 0 keeps the invariant. -/
theorem BlockInv.write {r : Reg} {v : Word} {s t : State} (h : BlockInv s) (hb : s.busy = false)
    (hw : WriteDoes r v s t) : BlockInv t := by
  have hf : s.inFlight = none := (not_busy_iff s).1 hb
  have answered (a : Reply) : BlockInv (s.answer a) := h.keepsCommand (by constructor <;> rfl)
  have ⟨⟨_, herr, _⟩, _, hctx⟩ := h
  cases hw
  case answered a ht => exact ht ▸ answered a
  case dropped | clearsWerr | setsDoneIe | clearsDoneIp =>
    subst t; exact h.keepsCommand (by constructor <;> rfl)
  case storesN => subst t; exact blockInv_of_idle hf herr nofun
  case storesA | storesB | storesE => subst t; exact blockInv_of_idle hf herr hctx
  case illegal | nop | errs => subst t; exact blockInv_of_idle hf (fun _ => rfl) hctx
  case launches i w _ hi ho ht => subst ht; exact (answered _).launch hi ho

theorem EdgeDoes.blockInv {s t : State} (h : EdgeDoes s t) (hs : BlockInv s) : BlockInv t := by
  cases h with
  | answers hb h => rw [h]; exact hs.congr rfl ⟨rfl, rfl, rfl, rfl, rfl, rfl, rfl⟩ rfl rfl rfl
  | writes hb r v hc hw => exact hs.takeCycle.write hb hw
  | counts f u hf hk _ hu h => exact h ▸ (hs.takeCycle.keepsCommand hu).count (hu.inFlight.trans hf) hk
  | completes f u hf hk _ hu h => exact h ▸ (hs.takeCycle.keepsCommand hu).complete (hu.inFlight.trans hf)

/-- Settles O54: the reset edge gives a state of the invariant, and an edge of work keeps it case by case. -/
theorem stepKeepsTheInvariant : Obligations.StepKeepsTheInvariant := by
  intro s t hs h
  rcases step_cases s with ⟨-, -, e⟩ | ⟨-, -, e⟩ | ⟨hr, -⟩
  · rw [e, Host.Outcome.next.injEq] at h
    exact h ▸ blockInv_resetEdge _
  · exact nomatch e.symm.trans h
  · exact (step_edgeDoes hr h).blockInv hs

/-- Settles O53. -/
theorem resetMeetsTheInvariant : Obligations.ResetMeetsTheInvariant :=
  blockInv_resetEdge State.reset

/-- Settles O55: each of the five registers is a guarded one. -/
theorem onlyTheHostWritesOperands : Obligations.OnlyTheHostWritesOperands := by
  intro s t hr h
  have only {x : Reg} (hx : Guarded x) := (step_edgeDoes hr h).guarded hx
  exact ⟨only (.inr (.inl rfl)), only (.inr (.inr (.inl rfl))), only (.inr (.inr (.inr (.inl rfl)))),
    only (.inr (.inr (.inr (.inr rfl)))), only (.inl rfl)⟩

/-- Settles O56: the record invariant names MONT_CTX as the command whose outcome is a context. -/
theorem onlyMontCtxWritesTheContext : Obligations.OnlyMontCtxWritesTheContext := by
  intro s t hs hr h
  have he := step_edgeDoes hr h
  refine ⟨fun hne => ?_, he.contextCleared⟩
  obtain ⟨f, ninv, one, hf, hw, hb⟩ := he.contextSet hne
  obtain ⟨-, hrec, -⟩ := hs
  obtain ⟨i, -, hc, -, ho⟩ := (recordInv_iff s).1 hrec f hf
  obtain ⟨rfl, -⟩ := outcomeOf_context (ho.trans (congrArg _ hw))
  exact ⟨(busy_iff s).2 ⟨f, hf⟩, hb, hc⟩

/-- Settles O57. -/
theorem resultsChangeOnlyAtCompletion : Obligations.ResultsChangeOnlyAtCompletion :=
  fun _ _ hr h => (step_edgeDoes hr h).results

/-- Settles O30: the launch follows from the outcome, and the outcome from the low halves of the registers. -/
theorem thirtyTwoBitCommandsIgnoreUpperBits : Obligations.ThirtyTwoBitCommandsIgnoreUpperBits := by
  intro i s₁ s₂ t₁ t₂ hi hb₁ hb₂ hN hA hB hE h₁ h₂
  have hnop : i ≠ .nop := by rcases hi with rfl | rfl | rfl <;> nofun
  obtain ⟨kN, kA, kB, kE, -⟩ := exec_sameOperands h₁
  obtain ⟨herr, hout⟩ := exec_sameEnd hnop hb₁ hb₂ (outcomeOf_congr_low32 hi hN hA hB hE) h₁ h₂
  exact ⟨herr, hout, kN.symm, kA.symm, kB.symm, kE.symm⟩

/-- Settles O46. -/
theorem writeToNInvalidatesTheContext : Obligations.WriteToNInvalidatesTheContext := by
  intro s v hb
  refine ⟨_, ?_, rfl, fun i hi => ?_⟩
  · rw [transact_writeReq, writeReg, writeOperand_idle (s.answer_busy okWrite ▸ hb)]
    rfl
  · have hnop : i ≠ .nop := by rintro rfl; cases hi
    exact endsWithError hnop hb (outcomeOf_enoctx hi rfl)

/-- Settles O47. -/
theorem writesToABEChangeOnlyThatRegister : Obligations.WritesToABEChangeOnlyThatRegister := by
  intro s v hb
  have idle : (s.answer okWrite).busy = false := hb
  simp only [transact_writeReq, writeReg, writeOperand_idle idle]
  exact ⟨rfl, rfl, rfl⟩

/-- Settles O48. -/
theorem statusAndInterruptWrites : Obligations.StatusAndInterruptWrites := by
  intro s v
  simp only [transact_writeReq, writeReg, writeStatus_eq, writeIrqStat_eq]
  exact ⟨rfl, rfl, rfl⟩

/-- Settles O50: bit by bit up to bit 7, and ERRCODE as the number above. -/
theorem statusWordLayout : Obligations.StatusWordLayout := by
  intro s
  have bit (k : Nat) : (readReg .status s).getLsbD k = _ := statusWord_getLsbD s k
  have code : (readReg .status s).toNat / 2 ^ 8 = s.errCode.toNat := statusWord_div s
  refine ⟨(bit 0).trans (by simp), (bit 1).trans (by simp), (bit 2).trans (by simp), (bit 3).trans (by simp),
    (bit 4).trans (by simp), code, fun k h5 h7 => ?_, ?_, ?_, ?_, ?_, ?_⟩
  · have low : ∀ m < 5, k ≠ m := by omega
    simp [bit, low, show ¬ 8 ≤ k by omega]
  all_goals
    intro he
    rw [code, State.errCode, he]
    rfl

/-- Settles O6. -/
theorem resetEdgeGivesResetValues : Obligations.ResetEdgeGivesResetValues := by
  intro s rest h
  refine ⟨_, step_reset h, fun u hu => ?_⟩
  obtain ⟨w, rfl⟩ : ∃ w : State, u = w.resetEdge := by
    rcases hu with rfl | rfl
    exacts [⟨_, rfl⟩, ⟨State.reset, rfl⟩]
  have zero {r : Reg} (hr : r ≠ .id) : readReg r w.resetEdge = 0 := readReg_resetEdge w hr
  exact ⟨rfl, zero nofun, zero nofun, zero nofun, zero nofun, zero nofun, zero nofun, zero nofun, zero nofun,
    zero nofun, zero nofun, zero nofun, zero nofun, rfl, rfl, rfl, rfl, rfl, rfl, rfl, rfl, rfl, rfl⟩

/-- Settles O52. -/
theorem irqIsTheLevelOfEnableAndPending : Obligations.IrqIsTheLevelOfEnableAndPending := by
  refine ⟨fun s => ?_, rfl⟩
  obtain ⟨hIe, hIeRest⟩ := flagAt_zero s.doneIe
  obtain ⟨hIp, hIpRest⟩ := flagAt_zero s.doneIp
  exact ⟨congrArg₂ _ hIe.symm hIp.symm, hIeRest, hIpRest⟩

end Sys2Proof.Machine

/-! PROOFS. The bus port: the byte lanes, the register window and the response table (20_memory.md). -/

namespace Sys2Proof.Machine

/-! ### Byte lanes -/

/-- A byte lane as a number (R84). -/
theorem byteLane_toNat (v : Word) (k : Nat) : (byteLane v k).toNat = v.toNat / 2 ^ (8 * k) % 2 ^ 8 := by
  rw [byteLane, BitVec.extractLsb'_toNat, Nat.shiftRight_eq_div_pow]

/-- The lanes of a second list stand above those of the first. -/
theorem ofLanes_append (bs cs : List Byte) : ofLanes (bs ++ cs) = ofLanes bs + 2 ^ (8 * bs.length) * ofLanes cs := by
  induction bs with
  | nil => simp [ofLanes]
  | cons b bs ih =>
    rw [List.cons_append, ofLanes, ofLanes, ih, List.length_cons]
    ring

/-- The lowest `n` lanes of a word carry its low `8 * n` bits. -/
theorem ofLanes_map_byteLane (v : Word) (n : Nat) :
    ofLanes ((List.range n).map (byteLane v)) = v.toNat % 2 ^ (8 * n) := by
  induction n with
  | zero => simp [ofLanes, Nat.mod_one]
  | succ n ih =>
    have lane : ofLanes [byteLane v n] = v.toNat / 2 ^ (8 * n) % 2 ^ 8 := byteLane_toNat v n
    rw [List.range_succ, List.map_append, ofLanes_append, ih, List.map_singleton, lane, List.length_map,
      List.length_range, Nat.mul_succ, pow_add, Nat.mod_mul]

/-- The eight lanes give the word back (R84). -/
@[simp] theorem ofLanes_lanes (v : Word) : ofLanes (lanes v) = v.toNat :=
  (ofLanes_map_byteLane v 8).trans (Nat.mod_eq_of_lt v.isLt)

/-- A command decodes from its lanes as from its word (R84, R110). -/
theorem decodeBytes_lanes (v : Word) : decodeBytes (lanes v) = decode v := by
  have eight : (lanes v).length = 8 := rfl
  rw [decodeBytes, if_pos eight, ofLanes_lanes, BitVec.ofNat_toNat, BitVec.setWidth_eq]

/-! ### The window -/

/-- A distance from BASE is mapped exactly when it is below 0x1000 (R82). -/
theorem mappedOffset_eq_some_of_addr {q : Req} {addr off : Nat} (hq : q.off = (addr : Int) - Config.base) :
    mappedOffset q = some off ↔ addr = Config.base + off ∧ off < 0x1000 := by
  rw [mappedOffset_eq_some, hq]
  exact and_congr_left' (by omega)

/-- Outside the window a transaction is not mapped (R85). -/
theorem mappedOffset_eq_none {q : Req} (h : q.off < 0 ∨ 0x1000 ≤ q.off) : mappedOffset q = none := by
  rw [Option.eq_none_iff_forall_ne_some]
  intro off hoff
  obtain ⟨heq, hlt⟩ := mappedOffset_eq_some.1 hoff
  omega

theorem regAt_eq_some_iff {off : Nat} {r : Reg} : regAt off = some r ↔ off = r.offset :=
  ⟨regAt_eq_some, fun h => h ▸ regAt_offset r⟩

theorem memRead_base_add (r : Reg) : memRead (Config.base + r.offset) 8 = readReq r := by
  simp [memRead, readReq]

theorem memWrite_base_add (r : Reg) (v : Word) : memWrite (Config.base + r.offset) 8 v = writeReq r v := by
  simp [memWrite, writeReq]

/-! ### The response table, row by row -/

theorem alignedAccess_iff {q : Req} {off : Nat} : alignedAccess q off = true ↔ q.size = 8 ∧ off % 8 = 0 := by
  simp [alignedAccess]

theorem errorReply_eq (resp : Resp) (k : AccessKind) :
    errorReply resp k = { resp := resp, rdata := if k = .read then some 0 else none } := by
  cases k <;> rfl

/-- A transaction outside the window does nothing and is not answered (R85, log entry 5). -/
theorem transact_unmapped {q : Req} (h : mappedOffset q = none) (s : State) : transact q s = .next s := by
  rw [transact, h]

/-- A mapped transaction that is not an aligned 64-bit one gets SLVERR (R83). -/
theorem transact_unaligned {q : Req} {off : Nat} (hm : mappedOffset q = some off) (ha : ¬ alignedAccess q off = true)
    (s : State) : transact q s = .next (s.answer (errorReply .slverr q.kind)) := by
  simp [transact, hm, ha]

/-- An aligned 64-bit transaction at an offset without a register gets DECERR (R85). -/
theorem transact_noRegister {q : Req} {off : Nat} (hm : mappedOffset q = some off) (ha : alignedAccess q off = true)
    (hr : regAt off = none) (s : State) : transact q s = .next (s.answer (errorReply .decerr q.kind)) := by
  simp [transact, hm, ha, hr]

/-- No register shows the answer of the bus port. -/
@[simp] theorem readReg_answer (x : Reg) (s : State) (a : Reply) : readReg x (s.answer a) = readReg x s := by
  cases x <;> rfl

/-- While BUSY = 0 a write of N, A, B or E stores the value, and every other register but STATUS, whose CTX_VALID a write
of N clears, reads as before (R37, R38). -/
theorem writeReg_operand {r : Reg} (hr : r = .n ∨ r = .a ∨ r = .b ∨ r = .e) (v : Word) {s : State}
    (hb : s.busy = false) :
    ∃ t, writeReg r v s = .next t ∧ readReg r t = v ∧ ∀ x, x ≠ r → x ≠ .status → readReg x t = readReg x s := by
  have idle : (s.answer okWrite).busy = false := hb
  rcases hr with rfl | rfl | rfl | rfl
  all_goals
    refine ⟨_, congrArg Host.Outcome.next (writeOperand_idle idle), rfl, fun x hx hst => ?_⟩
    cases x
    case status => exact absurd rfl hst
    all_goals simp [readReg, irqEnWord, irqStatWord] at hx ⊢

/-! ### The obligations -/

/-- Settles O4. -/
theorem byteLanesAreLittleEndian : Obligations.ByteLanesAreLittleEndian :=
  ⟨fun v k _ => byteLane_toNat v k, ofLanes_lanes, decodeBytes_lanes, fun _ _ => rfl⟩

/-- Settles O40: a request of MemRead or MemWrite holds the distance of its address from BASE. -/
theorem transactionsAddressTheWindow : Obligations.TransactionsAddressTheWindow :=
  ⟨Nat.mul_mod_right _ _, fun _ _ _ => mappedOffset_eq_some_of_addr rfl, fun _ _ _ _ => mappedOffset_eq_some_of_addr rfl,
    memRead_base_add, memWrite_base_add, fun _ _ => regAt_eq_some_iff, regAt_offset .id, regAt_offset .cmd,
    regAt_offset .status, regAt_offset .n, regAt_offset .a, regAt_offset .b, regAt_offset .e, regAt_offset .ninv,
    regAt_offset .one, regAt_offset .resLo, regAt_offset .resHi, regAt_offset .irqEn, regAt_offset .irqStat⟩

/-- Settles O41. -/
theorem narrowOrMisalignedGetsSlverr : Obligations.NarrowOrMisalignedGetsSlverr := by
  intro q off s hm hform
  have unaligned : ¬ alignedAccess q off = true := by
    rw [alignedAccess_iff]
    omega
  rw [transact_unaligned hm unaligned, errorReply_eq]
  rfl

/-- Settles O42. -/
theorem offsetsWithoutRegisterGetDecerr : Obligations.OffsetsWithoutRegisterGetDecerr := by
  refine ⟨fun q off s hm hsize halign hlow _ => ?_, fun q s hout => transact_unmapped (mappedOffset_eq_none hout) s⟩
  rw [transact_noRegister hm (alignedAccess_iff.2 ⟨hsize, halign⟩) (regAt_eq_none hlow), errorReply_eq]
  rfl

/-- Settles O49: the write stores the value, and the read changes only the answer. -/
theorem readAfterWriteReturnsTheValue : Obligations.ReadAfterWriteReturnsTheValue := by
  intro s r v hb hr
  obtain ⟨t, hw, hv, hkept⟩ := writeReg_operand hr v hb
  refine ⟨t, _, (transact_writeReq r v s).trans hw, transact_readReq r t, ?_, fun x hx hst => ?_⟩
  · rw [hv]
    rfl
  · exact (readReg_answer x t _).trans (hkept x hx hst)

/-- Settles O43. -/
theorem readOnlyWritesGetSlverr : Obligations.ReadOnlyWritesGetSlverr := by
  intro r v s hr
  rw [transact_writeReq]
  rcases hr with rfl | rfl | rfl | rfl | rfl <;> rfl

/-- Settles O45. -/
theorem readsReturnTheRegister : Obligations.ReadsReturnTheRegister :=
  fun r s => ⟨transact_readReq r s, rfl, rfl, rfl, rfl, rfl, rfl, rfl, rfl, rfl, rfl⟩

end Sys2Proof.Machine

/-! PROOFS. The command words, their decoder and encoder, and the host scripts (30_encoding.md). -/

namespace Sys2Proof.Machine

/-! ### Encoding -/

/-- The encoding facts of each command, for every command (R110 to R113). -/
theorem encoding_statement (i : Instr) : Laws.Encoding.Statement i := by
  cases i
  exacts [Laws.Encoding.nop, Laws.Encoding.wmul, Laws.Encoding.montInv, Laws.Encoding.montOne, Laws.Encoding.montCtx,
    Laws.Encoding.toMont, Laws.Encoding.fromMont, Laws.Encoding.montReduce, Laws.Encoding.montMul,
    Laws.Encoding.montPow, Laws.Encoding.sprp64, Laws.Encoding.mulmod32, Laws.Encoding.powmod32,
    Laws.Encoding.sprp32]

theorem encode_toNat (i : Instr) : (encode i).toNat = (opcode i).toNat := by
  obtain ⟨-, -, h, -, -⟩ := encoding_statement i
  exact h

@[simp] theorem decode_encode (i : Instr) : decode (encode i) = .ok i := by
  obtain ⟨-, -, -, h, -⟩ := encoding_statement i
  exact h

theorem decodeTableWord_encode (i : Instr) : decodeTableWord 64 (encode i).toNat = some i := by
  obtain ⟨-, -, -, -, h⟩ := encoding_statement i
  exact h

theorem encode_injective : Function.Injective encode := by
  intro i j h
  have decoded : (.ok i : Except DecodeError Instr) = .ok j := by rw [← decode_encode i, h, decode_encode]
  exact Except.ok.inj decoded

/-- The word of a command is the one with RSVD = 0 and the command's OPCODE (R110). -/
theorem eq_encode_iff {c : Word} {i : Instr} :
    c = encode i ↔ c.toNat / 2 ^ 8 = 0 ∧ c.toNat % 2 ^ 8 = (opcode i).toNat := by
  have narrow : (opcode i).toNat < 2 ^ 8 := (opcode i).isLt
  rw [← BitVec.toNat_inj, encode_toNat]
  omega

theorem mem_allInstrs (i : Instr) : i ∈ allInstrs := by cases i <;> decide

/-- The 14 OPCODE values of R111. -/
theorem mem_opcodeValues_iff {n : Nat} :
    n ∈ [0, 1, 2, 3, 4, 5, 6, 7, 8, 9, 10, 0x10, 0x11, 0x12] ↔ ∃ i, n = (opcode i).toNat := by
  have values : [0, 1, 2, 3, 4, 5, 6, 7, 8, 9, 10, 0x10, 0x11, 0x12] = allInstrs.map (fun i => (opcode i).toNat) := rfl
  simp [values, mem_allInstrs, eq_comm]

/-- No OPCODE lies in a reserved range (R113). -/
theorem opcode_assigned (i : Instr) :
    (opcode i).toNat ≤ 0x0A ∨ 0x10 ≤ (opcode i).toNat ∧ (opcode i).toNat ≤ 0x12 := by
  cases i <;> decide

/-! ### Decoding -/

/-- A row selects a word exactly when the word, all 64 bits of it, is the command's (R112). -/
theorem rowSelects_opcodeRow {c : Word} {i : Instr} : rowSelects c (opcodeRow i) = true ↔ c = encode i := by
  have full_mask : c &&& 0xFFFF_FFFF_FFFF_FFFF = c := BitVec.and_allOnes
  rw [rowSelects, beq_iff_eq, opcodeRow, full_mask]

theorem decode?_eq_some_iff {c : Word} {i : Instr} : decode? c = some i ↔ decode c = .ok i := by
  unfold decode?
  cases decode c <;> simp

theorem decode?_eq_none {c : Word} {e : DecodeError} (h : decode c = .error e) : decode? c = none := by
  rw [decode?, h]

theorem decode_eq_ok_iff {c : Word} {i : Instr} : decode c = .ok i ↔ c = encode i :=
  ⟨fun h => eq_encode_of_decode? (decode?_eq_some_iff.2 h), fun h => h ▸ decode_encode i⟩

/-- Where no row selects the word, the class of R113 is the reason. -/
theorem decode_of_ne_encode {c : Word} (h : ∀ i, c ≠ encode i) :
    decode c = if rsvdClear c then .error .reservedOpcode else .error .reservedBits := by
  have no_row : opcodeTable.find? (rowSelects c) = none := by
    rw [List.find?_eq_none]
    intro row hrow
    obtain ⟨i, -, rfl⟩ := List.mem_map.1 hrow
    exact fun hsel => h i (rowSelects_opcodeRow.1 hsel)
  rw [decode, no_row]

theorem rsvdClear_iff {c : Word} : rsvdClear c = true ↔ c.toNat / 2 ^ 8 = 0 := beq_iff_eq

theorem decode_reservedBits {c : Word} (h : c.toNat / 2 ^ 8 ≠ 0) : decode c = .error .reservedBits := by
  have no_command (i : Instr) : c ≠ encode i := fun hi => h (eq_encode_iff.1 hi).1
  rw [decode_of_ne_encode no_command, if_neg (mt rsvdClear_iff.1 h)]

theorem decode_reservedOpcode {c : Word} (h : c.toNat / 2 ^ 8 = 0)
    (hop : ∀ i, c.toNat % 2 ^ 8 ≠ (opcode i).toNat) :
    decode c = .error .reservedOpcode := by
  have no_command (i : Instr) : c ≠ encode i := fun hi => hop i (eq_encode_iff.1 hi).2
  rw [decode_of_ne_encode no_command, if_pos (rsvdClear_iff.2 h)]

/-- A word the decoder refuses, written to CMD, is an illegal one (R113). -/
theorem writeCmd_of_decode_error {c : Word} {e : DecodeError} (h : decode c = .error e) (s : State) :
    writeCmd c s = issueIllegal c s := by
  rw [writeCmd, decode?_eq_none h]

/-! ### Scripts -/

/-- The engine's share of an edge leaves the answer of the host's share (R81, R144). -/
theorem enginePhase_reply {q : Option Req} {s u : State} (h : hostPhase q s = .next u) :
    (enginePhase s u).reply = u.reply := by
  rcases enginePhase_does h with ⟨-, e⟩ | ⟨f, -, -, ⟨-, e⟩ | ⟨-, e⟩⟩ <;> rw [e]
  · simp [complete_eq]
  · rfl

/-- An edge at which the host reads a register answers with the register's value before the edge (R82, R266). -/
theorem step_present_readReq (r : Reg) (s : State) :
    ∃ t, step (s.present (readReq r)) = .next t ∧ t.reply = some (okRead (readReg r s)) := by
  have start : readReg r (s.present (readReq r)).takeCycle = readReg r s := by cases r <;> rfl
  have host : hostPhase (some (readReq r)) (s.present (readReq r)).takeCycle = .next _ := transact_readReq r _
  refine ⟨_, (step_present rfl).trans (runEdge_eq host), ?_⟩
  rw [enginePhase_reply host, start]
  rfl

/-- One poll of `P` (R119): the value read decides by its bit 0 whether the host polls again. -/
theorem playPoll_succ {polls : Nat} {s t : State} {v : Word} (h : step (s.present (readReq .status)) = .next t)
    (hv : t.reply = some (okRead v)) :
    playPoll (polls + 1) s = if v.getLsbD 0 then playPoll polls t else .ended t [some (okRead v)] := by
  have polled : playStmt (.r .status) s = .next t := h
  have busy : answerBusy (some (okRead v)) = v.getLsbD 0 := rfl
  simp only [playPoll, polled, hv, busy]

/-! ### The obligations -/

/-- Settles O1: a row's word is the command's, and decoding gives each command its own word. -/
theorem decodeInvertsEncode : Obligations.DecodeInvertsEncode := by
  refine ⟨fun _ _ => decode_eq_ok_iff, fun c => ?_, fun _ _ => beq_iff_eq, fun c i j hi hj => ?_⟩
  · simp only [decode_eq_ok_iff, eq_encode_iff, mem_opcodeValues_iff, exists_and_left]
  · exact encode_injective ((rowSelects_opcodeRow.1 hi).symm.trans (rowSelects_opcodeRow.1 hj))

/-- Settles O2: the OPCODE of every command is an assigned one, and a refused word is issued as an illegal one. -/
theorem reservedWordsEndWithEillegal : Obligations.ReservedWordsEndWithEillegal := by
  refine ⟨fun _ => decode_reservedBits, fun c h hlow hhigh => decode_reservedOpcode h fun i => ?_,
    fun c h hlow => decode_reservedOpcode h fun i => ?_, fun c e s hd hb => ?_⟩
  · have := opcode_assigned i
    omega
  · have := opcode_assigned i
    omega
  · rw [writeCmd_of_decode_error hd, issueIllegal_idle hb, endWithError_eq]

/-- Settles O3. -/
theorem opcodeWordsOfEachFamily : Obligations.OpcodeWordsOfEachFamily :=
  ⟨decodeTableWord_encode .nop, decodeTableWord_encode .wmul, decodeTableWord_encode .montReduce,
    decodeTableWord_encode .sprp64, decodeTableWord_encode .mulmod32, decodeTableWord_encode .sprp32⟩

/-- Settles O60: the read of STATUS is one step, and its answer decides how `P` goes on. -/
theorem scriptStatementsEncodeAsTransactions : Obligations.ScriptStatementsEncodeAsTransactions := by
  refine ⟨fun r v => (memWrite_base_add r v).symm, fun r => (memRead_base_add r).symm,
    fun i => (memWrite_base_add .cmd (encode i)).symm, fun _ => rfl, rfl, rfl, fun _ => rfl, fun _ _ => rfl,
    fun _ => rfl, fun polls s => ?_⟩
  obtain ⟨t, hstep, hreply⟩ := step_present_readReq .status s
  exact ⟨t, memRead_base_add .status ▸ hstep, hreply, playPoll_succ hstep hreply⟩

end Sys2Proof.Machine

/-! PROOFS. The command lifecycle: launch, drop, count and completion (40_control.md). -/

namespace Sys2Proof.Machine

open Sys2Proof.Claims

/-! ### The frame of a transaction or a cycle -/

theorem sameData_trans {s t u : State} (hst : SameData s t) (htu : SameData t u) : SameData s u := by
  obtain ⟨⟨hN, hA, hB, hE, hninv, hone, hctx⟩, hlo, hhi⟩ := hst
  obtain ⟨⟨kN, kA, kB, kE, kninv, kone, kctx⟩, klo, khi⟩ := htu
  exact ⟨⟨hN.trans kN, hA.trans kA, hB.trans kB, hE.trans kE, hninv.trans kninv, hone.trans kone, hctx.trans kctx⟩,
    hlo.trans klo, hhi.trans khi⟩

theorem KeepsCommand.sameData {s t : State} (h : KeepsCommand s t) : SameData s t :=
  ⟨h.sameOperands, h.resLo.symm, h.resHi.symm⟩

/-- Whatever a CMD write does at its edge, it changes no data register (R141). -/
theorem exec_sameData {i : Instr} {s t : State} (h : exec i s = .next t) : SameData s t := by
  obtain ⟨hlo, hhi⟩ : t.resLo = s.resLo ∧ t.resHi = s.resHi := by
    rcases exec_cases i s with ⟨-, e⟩ | ⟨-, -, e⟩ | ⟨-, -, err, -, e⟩ | ⟨-, -, w, -, e⟩ <;>
      (rw [e, Host.Outcome.next.injEq] at h; subst h; exact ⟨rfl, rfl⟩)
  exact ⟨exec_sameOperands h, hlo.symm, hhi.symm⟩

/-! ### Writes while BUSY = 1 -/

/-- A CMD write of any word, legal or not, is dropped while BUSY = 1 (R146). -/
theorem writeCmd_busy (c : Word) {s : State} (hb : s.busy = true) : writeCmd c s = .next s.dropWrite := by
  unfold writeCmd
  cases decode? c with
  | none => exact issueIllegal_busy hb
  | some i => exact exec_busy i hb

/-- A write of a guarded register is dropped while BUSY = 1, and the bus port answers OKAY (R146). -/
theorem writeReg_guarded_busy {r : Reg} (hr : Guarded r) (v : Word) {s : State} (hb : s.busy = true) :
    writeReg r v s = .next (s.answer okWrite).dropWrite := by
  have busy : (s.answer okWrite).busy = true := hb
  rcases hr with rfl | rfl | rfl | rfl | rfl
  · exact writeCmd_busy v busy
  all_goals exact congrArg Host.Outcome.next (writeOperand_busy busy)

/-! ### The outcome of a CMD write -/

/-- Two idle blocks with the same operands take a command to the same error and the same writes (R143). -/
theorem exec_sameEnd_of_sameOperands {i : Instr} {s₁ s₂ t₁ t₂ : State} (hb₁ : s₁.busy = false)
    (hb₂ : s₂.busy = false) (hop : SameOperands s₁ s₂) (h₁ : exec i s₁ = .next t₁) (h₂ : exec i s₂ = .next t₂) :
    t₁.error = t₂.error ∧ t₁.inFlight.map InFlight.outcome = t₂.inFlight.map InFlight.outcome := by
  by_cases hi : i = .nop
  · subst hi
    rw [exec_nop, issueImmediate_idle hb₁, Host.Outcome.next.injEq] at h₁
    rw [exec_nop, issueImmediate_idle hb₂, Host.Outcome.next.injEq] at h₂
    subst h₁ h₂
    simp [(not_busy_iff _).1 hb₁, (not_busy_iff _).1 hb₂]
  · exact exec_sameEnd hi hb₁ hb₂ (outcomeOf_congr hop i) h₁ h₂

/-- The same of a CMD write of any word, legal or not (R143). -/
theorem writeCmd_sameEnd {c : Word} {s₁ s₂ t₁ t₂ : State} (hb₁ : s₁.busy = false) (hb₂ : s₂.busy = false)
    (hop : SameOperands s₁ s₂) (h₁ : writeCmd c s₁ = .next t₁) (h₂ : writeCmd c s₂ = .next t₂) :
    t₁.error = t₂.error ∧ t₁.inFlight.map InFlight.outcome = t₂.inFlight.map InFlight.outcome := by
  unfold writeCmd at h₁ h₂
  cases hd : decode? c with
  | some i =>
    rw [hd] at h₁ h₂
    exact exec_sameEnd_of_sameOperands hb₁ hb₂ hop h₁ h₂
  | none =>
    simp only [hd, issueIllegal_idle hb₁, Host.Outcome.next.injEq] at h₁
    simp only [hd, issueIllegal_idle hb₂, Host.Outcome.next.injEq] at h₂
    subst h₁ h₂
    simp [endWithError_eq, (not_busy_iff _).1 hb₁, (not_busy_iff _).1 hb₂]

/-- BUSY shows whether there are register writes to come (R48). -/
theorem busy_eq_isSome_outcome (s : State) : s.busy = (s.inFlight.map InFlight.outcome).isSome := by
  rw [Option.isSome_map, State.busy]

/-! ### Edges by what they carry -/

/-- While BUSY = 0 an edge is the host's share alone (R139). -/
theorem runEdge_idle {s : State} (q : Option Req) (hb : s.busy = false) : runEdge q s = hostPhase q s := by
  obtain ⟨t, h, e⟩ := runEdge_next q s
  rw [e, h, enginePhase_idle hb]

/-- An edge without reset and without a transaction is the engine's share alone (R139). -/
theorem step_idleBus {s : State} (h : nextCycle s = { rst := false, req := none }) :
    step s = .next (enginePhase s.takeCycle s.takeCycle) := by
  simp [step, clockEdge, h, runEdge, hostPhase]

/-- On an idle bus a command in flight only has the engine's share of the edge (R144). -/
theorem step_idleBus_inFlight {s : State} {f : InFlight} (h : nextCycle s = { rst := false, req := none })
    (hf : s.inFlight = some f) : step s = .next s.takeCycle.engineTick := by
  have busy : s.takeCycle.busy = true := (busy_iff _).2 ⟨f, hf⟩
  rw [step_idleBus h, enginePhase_busy busy]

/-- An edge without reset while a command is in flight: the host's share keeps the command, then the engine ticks. -/
theorem step_inFlight {s : State} {f : InFlight} (hf : s.inFlight = some f) (hr : (nextCycle s).rst = false) :
    ∃ u, KeepsCommand s.takeCycle u ∧ step s = .next u.engineTick := by
  have busy : s.takeCycle.busy = true := (busy_iff _).2 ⟨f, hf⟩
  rcases step_cases s with ⟨hr', -⟩ | ⟨hr', -⟩ | ⟨-, u, hu, e⟩
  · exact nomatch hr.symm.trans hr'
  · exact nomatch hr.symm.trans hr'
  · exact ⟨u, hostPhase_busy busy hu, by rw [e, enginePhase_busy busy]⟩

/-! ### A run of edges with a command in flight -/

theorem runEdges_succ_last {k : Nat} {s t : State} (h : runEdges k s = .next t) : runEdges (k + 1) s = step t := by
  induction k generalizing s with
  | zero =>
    rw [← Host.Outcome.next.inj h]
    cases hs : step s <;> simp [runEdges, hs]
  | succ k ih =>
    cases hs : step s with
    | next u =>
      rw [runEdges_succ hs] at h ⊢
      exact ih h
    | fault r => exact nomatch r
    | refused r => simp [runEdges, hs] at h

/-- Where `rst` is low at each of the coming `k` edges, it is low at the edge after `j < k` of them. -/
theorem nextCycle_rst_of_drop {s u : State} {j k : Nat} (hr : ∀ c ∈ s.inputs.take k, c.rst = false) (hj : j < k)
    (hu : u.inputs = s.inputs.drop j) : (nextCycle u).rst = false := by
  unfold nextCycle
  cases hc : u.inputs with
  | nil => rfl
  | cons c rest =>
    have hget : s.inputs[j]? = some c := by rw [← List.head?_drop, ← hu, hc, List.head?_cons]
    exact hr c (List.mem_of_getElem? (i := j) (by rw [List.getElem?_take_of_lt hj, hget]))

/-- What a state `u` has in common with `s`, from which `j` edges led to it without ending the command `f` in flight:
its record has counted `j` cycles, and no data register has changed (R144, R146). -/
structure InFlightAfter (s : State) (f : InFlight) (j : Nat) (u : State) : Prop where
  record : u.inFlight = some { f with remaining := f.remaining - j }
  data : SameData s u
  done : u.done = s.done
  inputs : u.inputs = s.inputs.drop j

/-- A command in flight counts one cycle at each edge, whatever the host does, while more than one is left (R139). -/
theorem runEdges_inFlight {s : State} {f : InFlight} {j : Nat} (hf : s.inFlight = some f) (hj : j < f.remaining)
    (hr : ∀ c ∈ s.inputs.take f.remaining, c.rst = false) :
    ∃ u, runEdges j s = .next u ∧ InFlightAfter s f j u := by
  induction j with
  | zero => exact ⟨s, rfl, hf, ⟨⟨rfl, rfl, rfl, rfl, rfl, rfl, rfl⟩, rfl, rfl⟩, rfl, rfl⟩
  | succ j ih =>
    obtain ⟨u, hrun, hu⟩ := ih (by omega)
    obtain ⟨v, hv, hstep⟩ := step_inFlight hu.record (nextCycle_rst_of_drop hr (by omega) hu.inputs)
    refine ⟨_, (runEdges_succ_last hrun).trans hstep, ?_⟩
    rw [engineTick_count (hv.inFlight.trans hu.record) (show 1 < f.remaining - j by omega)]
    refine ⟨?_, sameData_trans hu.data hv.sameData, hv.done.trans hu.done, ?_⟩
    · simp [Nat.sub_sub]
    · rw [State.setInFlight_inputs, hv.inputs, State.takeCycle_inputs, hu.inputs, List.tail_drop]

/-- After its remaining cycles a command in flight completes, on the data it started with (R139, R144). -/
theorem runEdges_completes_any {s : State} {f : InFlight} (hf : s.inFlight = some f) (hk : 1 ≤ f.remaining)
    (hr : ∀ c ∈ s.inputs.take f.remaining, c.rst = false) :
    ∃ u, SameData s u ∧ runEdges f.remaining s = .next (u.complete f) := by
  obtain ⟨j, hj⟩ : ∃ j, f.remaining = j + 1 := ⟨f.remaining - 1, by omega⟩
  obtain ⟨u, hrun, hu⟩ := runEdges_inFlight hf (show j < f.remaining by omega) hr
  obtain ⟨v, hv, hstep⟩ := step_inFlight hu.record (nextCycle_rst_of_drop hr (by omega) hu.inputs)
  refine ⟨v, sameData_trans hu.data hv.sameData, ?_⟩
  rw [hj, runEdges_succ_last hrun, hstep,
    engineTick_complete (hv.inFlight.trans hu.record) (show f.remaining - j ≤ 1 by omega)]
  rfl

/-! ### WERR -/

/-- A write of a register leaves WERR, sets it where it is dropped, or clears it by bit 4 of STATUS (R35, R146). -/
theorem WriteDoes.werr {r : Reg} {v : Word} {s t : State} (h : WriteDoes r v s t) :
    t.werr = s.werr ∨ (t.werr = true ∧ s.busy = true ∧ dropsWhileBusy r = true) ∨
      (t.werr = false ∧ r = .status ∧ v.getLsbD 4 = true) := by
  cases h
  case dropped hb hr h => subst h; exact .inr (.inl ⟨rfl, hb, hr⟩)
  case clearsWerr hr hv h => subst h; exact .inr (.inr ⟨rfl, hr, hv⟩)
  all_goals subst t; exact .inl rfl

/-- The registers whose writes are dropped are CMD, N, A, B and E (R146). -/
theorem dropsWhileBusy_iff {r : Reg} : dropsWhileBusy r = true ↔ Guarded r := by
  cases r <;> simp [dropsWhileBusy, Guarded]

/-- The engine's share of an edge leaves WERR (R144). -/
theorem enginePhase_werr {q : Option Req} {s u : State} (h : hostPhase q s = .next u) :
    (enginePhase s u).werr = u.werr := by
  rcases enginePhase_does h with ⟨-, e⟩ | ⟨f, -, -, ⟨-, e⟩ | ⟨-, e⟩⟩ <;> rw [e]
  · simp [complete_eq]
  · rfl

/-- At an edge without reset WERR stays, or a register write changes it (R35, R146). -/
theorem step_werr {s t : State} (hr : (nextCycle s).rst = false) (h : step s = .next t) :
    t.werr = s.werr ∨ ∃ r v, CarriesWrite (nextCycle s) r v ∧
      ((t.werr = true ∧ s.busy = true ∧ dropsWhileBusy r = true) ∨
        (t.werr = false ∧ r = .status ∧ v.getLsbD 4 = true)) := by
  obtain ⟨u, hu, rfl⟩ := step_phases hr h
  rw [enginePhase_werr hu]
  rcases hostPhase_does hu with ha | ⟨q, r, hq, hkind, hsize, hoff, hw⟩
  · exact .inl (by rw [ha]; rfl)
  · rcases hw.werr with hkept | hchanged
    · exact .inl hkept
    · exact .inr ⟨r, q.wdata, ⟨q, hq, hkind, hsize, hoff, rfl⟩, hchanged⟩

/-! ### The obligations -/

/-- Settles O8: with an idle bus the edge is the engine's tick, which counts or completes. -/
theorem completionWritesAllOutputsTogether : Obligations.CompletionWritesAllOutputsTogether := by
  intro s hc
  refine ⟨fun hb => ?_, fun f hf => ⟨fun hone => ?_, fun htwo => ?_⟩⟩
  · rw [step_idleBus hc, enginePhase_idle (s.takeCycle_busy.trans hb)]
    rfl
  · rw [step_idleBus_inFlight hc hf, engineTick_complete (s := s.takeCycle) hf hone.le, complete_eq]
    refine ⟨fun lo hi hw => ?_, fun i o hw => ?_⟩ <;> rw [hw] <;> rfl
  · rw [step_idleBus_inFlight hc hf, engineTick_count (s := s.takeCycle) hf htwo]
    rfl

/-- Settles O10: the command counts until one cycle is left, and then completes on the data it started with. -/
theorem commandInFlightCompletesInTime : Obligations.CommandInFlightCompletesInTime := by
  intro s f hf hk hr
  refine ⟨fun j hj => ?_, ?_⟩
  · obtain ⟨u, hrun, hu⟩ := runEdges_inFlight hf hj hr
    exact ⟨u, hrun, (busy_iff u).2 ⟨_, hu.record⟩, hu.data, hu.done⟩
  · obtain ⟨u, ⟨⟨hN, hA, hB, hE, hninv, hone, hctx⟩, hlo, hhi⟩, hrun⟩ := runEdges_completes_any hf hk hr
    refine ⟨_, hrun, rfl, rfl, rfl, rfl, ?_⟩
    cases hw : f.outcome <;> simp [complete_eq, hw, hN, hA, hB, hE, hninv, hone, hctx, hlo, hhi]

/-- Settles O11: an accepted command is NOP, ends with an error, or is launched. -/
theorem acceptedCommandFrame : Obligations.AcceptedCommandFrame := by
  intro i s hb
  have hf : s.inFlight = none := (not_busy_iff s).1 hb
  rcases exec_cases i s with ⟨hb', -⟩ | ⟨-, -, e⟩ | ⟨-, -, err, -, e⟩ | ⟨-, -, w, -, e⟩
  · exact nomatch hb.symm.trans hb'
  · exact ⟨_, e, rfl, exec_sameData e, rfl, rfl, rfl, rfl, .inl ⟨hb, rfl, rfl, rfl⟩⟩
  · exact ⟨_, e, rfl, exec_sameData e, rfl, rfl, rfl, rfl, .inl ⟨hb, rfl, rfl, rfl⟩⟩
  · refine ⟨_, e, rfl, exec_sameData e, rfl, rfl, rfl, rfl,
      .inr ⟨rfl, rfl, rfl, _, rfl, rfl, one_le_latency s i, rfl, fun hl => ?_⟩⟩
    simp [State.latency, hl]

/-- Settles O12. -/
theorem writesWhileBusyAreDropped : Obligations.WritesWhileBusyAreDropped := by
  intro s hb
  exact ⟨fun i => exec_busy i hb, fun c => writeCmd_busy c hb,
    fun r v hr => (transact_writeReq r v s).trans (writeReg_guarded_busy hr v hb)⟩

/-- Settles O13: the error and the writes agree, and BUSY tells whether there are writes. -/
theorem outcomeDependsOnOperandsOnly : Obligations.OutcomeDependsOnOperandsOnly := by
  intro c s₁ s₂ t₁ t₂ hb₁ hb₂ hop h₁ h₂
  obtain ⟨herr, hout⟩ := writeCmd_sameEnd hb₁ hb₂ hop h₁ h₂
  exact ⟨herr, by rw [busy_eq_isSome_outcome, hout, ← busy_eq_isSome_outcome], hout⟩

/-- Settles O58: of the two ways a write changes WERR, one sets it and the other clears it. -/
theorem werrHasOneCause : Obligations.WerrHasOneCause := by
  intro s t hr h
  rcases step_werr hr h with hkept | ⟨r, v, hc, ⟨hset, hb, hd⟩ | ⟨hclear, rfl, hv⟩⟩
  · exact ⟨fun ht hs => by simp [ht, hs] at hkept, fun ht hs => by simp [ht, hs] at hkept⟩
  · exact ⟨fun _ _ => ⟨hb, r, v, dropsWhileBusy_iff.1 hd, hc⟩, fun ht => by simp [hset] at ht⟩
  · exact ⟨fun ht => by simp [hclear] at ht, fun _ _ => ⟨v, hc, hv⟩⟩

/-- Settles O5: the edge's transaction is the CMD write, and the engine follows it while a command is in flight. -/
theorem stepRunsTheCommandWritten : Obligations.StepRunsTheCommandWritten := by
  refine ⟨fun s c i rest hin hd => ?_, fun s c => ?_⟩
  · have start : { s with inputs := rest, reply := some okWrite } = s.takeCycle.answer okWrite := by
      simp [State.takeCycle, State.answer, hin]
    have host : hostPhase (some (writeReq .cmd c)) s.takeCycle = exec i (s.takeCycle.answer okWrite) := by
      rw [hostPhase, transact_writeReq, writeReg, writeCmd, decode?_eq_some_iff.2 hd]
    refine ⟨fun hb => ?_, fun hb => ?_⟩
    · rw [step_present hin, runEdge_idle _ (s.takeCycle_busy.trans hb), host, start]
    · have busy : s.takeCycle.busy = true := hb
      have dropped : hostPhase (some (writeReq .cmd c)) s.takeCycle = .next (s.takeCycle.answer okWrite).dropWrite :=
        host.trans (exec_busy i busy)
      rw [step_present hin, runEdge_eq dropped, enginePhase_busy busy, ← start]
      rfl
  · rw [State.withFetchWord, Nat.mod_eq_of_lt c.isLt, BitVec.ofNat_toNat, BitVec.setWidth_eq]
    rfl

/-- Settles O16: NOP is the command that is issued without an outcome, and a reserved bit makes its word illegal. -/
theorem nopCompletesAtOnce : Obligations.NopCompletesAtOnce := by
  refine ⟨rfl, fun s => ⟨issueImmediate_idle, exec_busy .nop, fun c hb _ hbits => ?_⟩⟩
  exact ⟨_, (writeCmd_of_decode_error (decode_reservedBits hbits) s).trans (issueIllegal_idle hb), rfl⟩

end Sys2Proof.Machine

/-! PROOFS. The Montgomery arithmetic (42_montgomery.md): the inverse, the reduction, and the Montgomery form, which
carries the products, powers and Miller-Rabin rounds of the 64-bit engine to the plain residues. -/

namespace Sys2Proof.Machine

/-! ### Hensel lifting -/

/-- The start value is an inverse of an odd n modulo 2^5 (R198): only n mod 32 matters. -/
theorem mul_montInvStart_mod {n : Nat} (hodd : n % 2 = 1) : n * montInvStart n % 32 = 1 := by
  have residues : ∀ m < 32, m % 2 = 1 → m * ((3 * m) % 32 ^^^ 2) % 32 = 1 := by decide
  have start : montInvStart n % 2 ^ 5 = (3 * (n % 32)) % 32 ^^^ 2 := by
    rw [montInvStart, Nat.xor_mod_two_pow, Nat.mod_mod_of_dvd _ (by norm_num)]
    simp [Nat.mul_mod]
  rw [Nat.mul_mod, show (32 : Nat) = 2 ^ 5 by rfl, start]
  simpa [Nat.mul_mod] using residues (n % 32) (Nat.mod_lt n (by norm_num)) (by omega)

/-- One iteration multiplies the estimate by `2 - est * n`, modulo 2^64 (R196). -/
theorem montInvStep_modEq (n est : Nat) : (montInvStep n est : Int) ≡ (2 - est * n) * est [ZMOD 2 ^ 64] := by
  have wrapped : (wrap64 (2 - (est : Int) * n) : Int) ≡ 2 - est * n [ZMOD 2 ^ 64] := by
    rw [wrap64_cast]
    exact Int.mod_modEq _ _
  rw [montInvStep, Int.natCast_mod, Int.natCast_mul]
  exact (Int.mod_modEq _ _).trans (wrapped.mul_right _)

/-- One iteration squares the error of the estimate (R198). -/
theorem montInvStep_mul_modEq {n est j : Nat} {k : Int} (h : (est * n : Int) ≡ 1 - k * 2 ^ j [ZMOD 2 ^ 64]) :
    (montInvStep n est * n : Int) ≡ 1 - k ^ 2 * 2 ^ (2 * j) [ZMOD 2 ^ 64] := by
  calc (montInvStep n est * n : Int)
      ≡ (2 - est * n) * est * n [ZMOD 2 ^ 64] := (montInvStep_modEq n est).mul_right _
    _ = (2 - est * n) * (est * n) := by ring
    _ ≡ (2 - (1 - k * 2 ^ j)) * (1 - k * 2 ^ j) [ZMOD 2 ^ 64] := (h.sub_left 2).mul h
    _ = 1 - k ^ 2 * 2 ^ (2 * j) := by ring

/-- From 5 right bits, four iterations give 80, and so the inverse modulo 2^64 (R198). -/
theorem mul_montInv_mod {n : Nat} (hodd : n % 2 = 1) : n * montInv n % 2 ^ 64 = 1 := by
  obtain ⟨k, hk⟩ : ∃ k : Int, 1 = (n * montInvStart n : Int) + 32 * k := by
    have right : n * montInvStart n ≡ 1 [MOD 32] := mul_montInvStart_mod hodd
    exact Int.modEq_iff_add_fac.1 (by exact_mod_cast Int.natCast_modEq_iff.2 right)
  have start : (montInvStart n * n : Int) ≡ 1 - k * 2 ^ 5 [ZMOD 2 ^ 64] := by
    rw [show (montInvStart n * n : Int) = 1 - k * 2 ^ 5 by linarith]
  have lifted : (montInv n * n : Int) ≡ 1 - (((k ^ 2) ^ 2) ^ 2) ^ 2 * 2 ^ 80 [ZMOD 2 ^ 64] :=
    montInvStep_mul_modEq <| montInvStep_mul_modEq <| montInvStep_mul_modEq <| montInvStep_mul_modEq start
  have one : 1 - (((k ^ 2) ^ 2) ^ 2) ^ 2 * 2 ^ 80 ≡ 1 [ZMOD 2 ^ 64] :=
    Int.modEq_iff_dvd.2 ⟨(((k ^ 2) ^ 2) ^ 2) ^ 2 * 2 ^ 16, by ring⟩
  have inverse : montInv n * n ≡ 1 [MOD 2 ^ 64] :=
    Int.natCast_modEq_iff.1 <| by exact_mod_cast lifted.trans one
  rw [mul_comm]
  exact inverse

/-! ### The reduction -/

/-- `m * n` is `t * 2^64 + lo` exactly (R202). -/
theorem montReduceT_exact {lo n : Nat} (hlo : lo < 2 ^ 64) (hn : n < 2 ^ 64) (hodd : n % 2 = 1) :
    lo * montInv n % 2 ^ 64 * n = montReduceT lo n (montInv n) * 2 ^ 64 + lo := by
  have low : lo * montInv n % 2 ^ 64 * n % 2 ^ 64 = lo := by
    calc lo * montInv n % 2 ^ 64 * n % 2 ^ 64 = lo * (n * montInv n % 2 ^ 64) % 2 ^ 64 := by
          rw [Nat.mod_mul_mod, Nat.mul_mod_mod, mul_assoc, mul_comm n]
      _ = lo := by rw [mul_montInv_mod hodd, mul_one, Nat.mod_eq_of_lt hlo]
  have high : lo * montInv n % 2 ^ 64 * n / 2 ^ 64 < 2 ^ 64 :=
    Nat.div_lt_of_lt_mul (Nat.mul_lt_mul'' (Nat.mod_lt _ (by norm_num)) hn)
  rw [montReduceT, hi64, Nat.mod_eq_of_lt high]
  have split := Nat.div_add_mod' (lo * montInv n % 2 ^ 64 * n) (2 ^ 64)
  rw [low] at split
  exact split.symm

theorem montReduceT_lt_modulus {lo n : Nat} (hlo : lo < 2 ^ 64) (hn : n < 2 ^ 64) (hodd : n % 2 = 1) :
    montReduceT lo n (montInv n) < n := by
  have exact_eq := montReduceT_exact hlo hn hodd
  have small : lo * montInv n % 2 ^ 64 * n < 2 ^ 64 * n :=
    Nat.mul_lt_mul_of_pos_right (Nat.mod_lt _ (by norm_num)) (by omega)
  omega

/-- The reduction is `hi - t`, plus n where that is negative (R200, R202). -/
theorem montReduce_cast {lo hi n : Nat} (hlo : lo < 2 ^ 64) (hn : n < 2 ^ 64) (hodd : n % 2 = 1) :
    (montReduce lo hi n (montInv n) : Int) =
      hi - montReduceT lo n (montInv n) + if montReduceT lo n (montInv n) ≤ hi then 0 else (n : Int) := by
  have ht := montReduceT_lt_modulus hlo hn hodd
  simp only [montReduce]
  split
  · omega
  · rw [wrap64_cast, Int.emod_eq_of_lt (by omega) (by norm_num; omega)]

/-- The reduction of a value whose high half is canonical is canonical (R202). -/
theorem montReduce_lt_modulus {lo hi n : Nat} (hlo : lo < 2 ^ 64) (hn : n < 2 ^ 64) (hodd : n % 2 = 1) (hhi : hi < n) :
    montReduce lo hi n (montInv n) < n := by
  have value := montReduce_cast (hi := hi) hlo hn hodd
  split at value <;> omega

/-- The reduction divides by 2^64 modulo n (R202). -/
theorem montReduce_mul_mod {lo hi n : Nat} (hlo : lo < 2 ^ 64) (hn : n < 2 ^ 64) (hodd : n % 2 = 1) :
    montReduce lo hi n (montInv n) * 2 ^ 64 % n = (hi * 2 ^ 64 + lo) % n := by
  have exact_eq := montReduceT_exact hlo hn hodd
  have value := montReduce_cast (hi := hi) hlo hn hodd
  obtain ⟨c, hc⟩ : ∃ c : Int, (hi * 2 ^ 64 + lo : Int) = montReduce lo hi n (montInv n) * 2 ^ 64 + n * c := by
    refine ⟨(lo * montInv n % 2 ^ 64 : Nat) - (if montReduceT lo n (montInv n) ≤ hi then 0 else 2 ^ 64), ?_⟩
    have exact_int : ((lo * montInv n % 2 ^ 64 : Nat) * n : Int) = montReduceT lo n (montInv n) * 2 ^ 64 + lo := by
      exact_mod_cast exact_eq
    rw [value, mul_sub, mul_comm (n : Int) (lo * montInv n % 2 ^ 64 : Nat), exact_int]
    split <;> ring
  exact Int.natCast_modEq_iff.1 <| by push_cast; exact Int.modEq_iff_add_fac.2 ⟨c, hc⟩

/-- The product of two canonical values is canonical (R207). -/
theorem montMul_lt_modulus {a b n : Nat} (hn : n < 2 ^ 64) (hodd : n % 2 = 1) (ha : a < n) (hb : b < n) :
    montMul a b n (montInv n) < n := by
  have high : a * b / 2 ^ 64 < n := Nat.div_lt_of_lt_mul (Nat.mul_lt_mul'' (ha.trans hn) hb)
  refine montReduce_lt_modulus (lo64_lt _) hn hodd ?_
  rw [wmul, hi64, Nat.mod_eq_of_lt (high.trans hn)]
  exact high

/-- The product divides by 2^64 modulo n (R207). -/
theorem montMul_mul_mod {a b n : Nat} (hn : n < 2 ^ 64) (hodd : n % 2 = 1) (ha : a < 2 ^ 64) (hb : b < 2 ^ 64) :
    montMul a b n (montInv n) * 2 ^ 64 % n = a * b % n := by
  rw [montMul, montReduce_mul_mod (show (wmul a b).1 < 2 ^ 64 from lo64_lt _) hn hodd, wmul_exact ha hb]

/-! ### The Montgomery form -/

/-- The Montgomery form of x modulo n (R210). -/
def montForm (n x : Nat) : Nat := x * 2 ^ 64 % n

theorem montForm_lt {n : Nat} (hn : 0 < n) (x : Nat) : montForm n x < n := Nat.mod_lt _ hn

theorem montForm_mod (n x : Nat) : montForm n (x % n) = montForm n x := Nat.mod_mul_mod x (2 ^ 64) n

theorem toMont_eq (x n : Nat) : toMont x n = montForm n x := montForm_mod n x

theorem coprime_radix {n : Nat} (hodd : n % 2 = 1) : Nat.Coprime n (2 ^ 64) :=
  (Nat.coprime_two_right.2 (Nat.odd_iff.2 hodd)).pow_right 64

/-- The radix cancels modulo an odd n. -/
theorem mod_eq_of_mul_radix {n x y : Nat} (hodd : n % 2 = 1) (h : x * 2 ^ 64 % n = y * 2 ^ 64 % n) : x % n = y % n :=
  Nat.ModEq.cancel_right_of_coprime (coprime_radix hodd) h

/-- Two residues have the same form exactly when they are equal. -/
theorem montForm_inj {n x y : Nat} (hodd : n % 2 = 1) (hx : x < n) (hy : y < n) :
    montForm n x = montForm n y ↔ x = y := by
  refine ⟨fun h => ?_, congrArg _⟩
  have residues := mod_eq_of_mul_radix hodd h
  rwa [Nat.mod_eq_of_lt hx, Nat.mod_eq_of_lt hy] at residues

/-- The product of two forms is the form of the product (R207). -/
theorem montMul_montForm {n : Nat} (hn : n < 2 ^ 64) (hodd : n % 2 = 1) (x y : Nat) :
    montMul (montForm n x) (montForm n y) n (montInv n) = montForm n (mulmod32 x y n) := by
  have canonical (z : Nat) : montForm n z < n := montForm_lt (by omega) z
  have scaled : montMul (montForm n x) (montForm n y) n (montInv n) * 2 ^ 64 ≡
      montForm n (mulmod32 x y n) * 2 ^ 64 [MOD n] := by
    calc montMul (montForm n x) (montForm n y) n (montInv n) * 2 ^ 64
        ≡ montForm n x * montForm n y [MOD n] :=
          montMul_mul_mod hn hodd ((canonical x).trans hn) ((canonical y).trans hn)
      _ ≡ x * 2 ^ 64 * (y * 2 ^ 64) [MOD n] := (Nat.mod_modEq _ _).mul (Nat.mod_modEq _ _)
      _ = x * y * 2 ^ 64 * 2 ^ 64 := by ring
      _ ≡ montForm n (mulmod32 x y n) * 2 ^ 64 [MOD n] := by
          rw [mulmod32, montForm_mod]
          exact (Nat.mod_modEq _ _).symm.mul_right _
  have residues := mod_eq_of_mul_radix hodd scaled
  rwa [Nat.mod_eq_of_lt (montMul_lt_modulus hn hodd (canonical x) (canonical y)),
    Nat.mod_eq_of_lt (canonical _)] at residues

/-- On forms, the 64-bit power loop does what the plain loop does on the residues (R226). -/
theorem montPowLoop_montForm {n : Nat} (hn : n < 2 ^ 64) (hodd : n % 2 = 1) (fuel r b k : Nat) :
    montPowLoop n (montInv n) fuel (montForm n r) (montForm n b) k = montForm n (powmod32Loop n fuel r b k) := by
  induction fuel generalizing r b k with
  | zero => rfl
  | succ fuel ih =>
    rw [montPowLoop_succ, powmod32Loop_succ, montMul_montForm hn hodd, montMul_montForm hn hodd, ← ih]
    split <;> rfl

/-- Montgomery one is the form of 1 (R220). -/
theorem montOne_eq_montForm {n : Nat} (hodd : n % 2 = 1) (h3 : 3 ≤ n) : montOne n = montForm n 1 := by
  have residue : montOne n % n = 2 ^ 64 % n := Nat.mod_add_mod (radix - 1) n 1
  have below : montOne n ≠ n := by
    intro h
    rw [h, Nat.mod_self] at residue
    have := (coprime_radix hodd).eq_one_of_dvd (Nat.dvd_of_mod_eq_zero residue.symm)
    omega
  rw [montForm, one_mul, ← residue, Nat.mod_eq_of_lt (lt_of_le_of_ne (montOne_le (by omega)) below)]

/-- Without an underflow `neg_one` is the difference (R241). -/
theorem negOne_of_le {n one : Nat} (hn : n < 2 ^ 64) (h : one ≤ n) : negOne n one = n - one := by
  have cast : (wrap64 ((n : Int) - one) : Int) = n - one := by
    rw [wrap64_cast, Int.emod_eq_of_lt (by omega) (by norm_num; omega)]
  simp only [negOne, if_neg (Nat.not_lt.2 h)]
  omega

/-- `neg_one` is the form of n - 1 (R241). -/
theorem negOne_eq_montForm {n : Nat} (hn : n < 2 ^ 64) (hodd : n % 2 = 1) (h3 : 3 ≤ n) :
    negOne n (montOne n) = montForm n (n - 1) := by
  have le := montOne_le (n := n) (by omega)
  have pos := montOne_pos n
  have sum : n - montOne n + montForm n 1 ≡ montForm n (n - 1) + montForm n 1 [MOD n] := by
    calc n - montOne n + montForm n 1 = n := by rw [← montOne_eq_montForm hodd h3]; omega
      _ ≡ n * 2 ^ 64 [MOD n] := by simp [Nat.ModEq]
      _ = (n - 1) * 2 ^ 64 + 1 * 2 ^ 64 := by rw [← add_mul, Nat.sub_add_cancel (by omega)]
      _ ≡ montForm n (n - 1) + montForm n 1 [MOD n] := ((Nat.mod_modEq _ _).add (Nat.mod_modEq _ _)).symm
  rw [negOne_of_le hn le]
  exact (Nat.ModEq.add_right_cancel' _ sum).eq_of_lt_of_lt (by omega) (montForm_lt (by omega) _)

end Sys2Proof.Machine

/-! PROOFS. The 32-bit modular arithmetic (41_modarith32.md) and the Miller-Rabin round of both widths
(43_sprp64.md): each round is one and the same decision, whether n is a strong probable prime. -/

namespace Sys2Proof.Machine

open Sys2Proof.Claims

/-! ### Powers -/

/-- The loop multiplies the accumulator by the power, modulo m (R165). -/
theorem powmod32Loop_eq {m fuel r b e : Nat} (hr : r < m) (he : e < 2 ^ fuel) :
    powmod32Loop m fuel r b e = r * b ^ e % m := by
  induction fuel generalizing r b e with
  | zero =>
    obtain rfl : e = 0 := by omega
    simp [powmod32Loop, Nat.mod_eq_of_lt hr]
  | succ fuel ih =>
    have half : e / 2 < 2 ^ fuel := by rw [pow_succ] at he; omega
    have square : mulmod32 b b m ^ (e / 2) ≡ b ^ (2 * (e / 2)) [MOD m] := by
      rw [pow_mul, sq]
      exact (Nat.mod_modEq _ _).pow _
    rw [powmod32Loop_succ]
    split
    · next hodd =>
      rw [ih (mulmod32_lt (by omega)) half]
      calc mulmod32 r b m * mulmod32 b b m ^ (e / 2)
          ≡ r * b * b ^ (2 * (e / 2)) [MOD m] := (Nat.mod_modEq _ _).mul square
        _ = r * b ^ (2 * (e / 2) + 1) := by ring
        _ = r * b ^ e := by rw [show 2 * (e / 2) + 1 = e by omega]
    · next heven =>
      rw [ih hr half]
      calc r * mulmod32 b b m ^ (e / 2) ≡ r * b ^ (2 * (e / 2)) [MOD m] := square.mul_left r
        _ = r * b ^ e := by rw [show 2 * (e / 2) = e by omega]

/-- Square-and-multiply gives the power modulo m, 0^0 being 1 (R165). -/
theorem powmod32_eq {a b m : Nat} (hm : 0 < m) (hb : b < 2 ^ 32) : powmod32 a b m = a ^ b % m := by
  rw [powmod32, powmod32Loop_eq (Nat.mod_lt 1 hm) hb, Nat.mod_mul_mod, one_mul]

/-- The Montgomery power of a form is the form of the power (R226). -/
theorem montPow_montForm {n x e : Nat} (hn : n < 2 ^ 64) (hodd : n % 2 = 1) (h3 : 3 ≤ n) (he : e < 2 ^ 64) :
    montPow (montForm n x) e n (montInv n) (montOne n) = montForm n (x ^ e % n) := by
  rw [montPow, montOne_eq_montForm hodd h3, montPowLoop_montForm hn hodd, powmod32Loop_eq (by omega) he, one_mul]

/-! ### The Miller-Rabin round of both widths -/

/-- The Miller-Rabin round on plain residues, with the exact power: what SPRP32 and SPRP64 both compute (R170, R244). -/
def millerRabinRound (n a : Nat) : Nat :=
  let s := ctz (n - 1)
  let x := a ^ ((n - 1) / 2 ^ s) % n
  if a % n = 0 then 1 else if x = 1 ∨ x = n - 1 then 1 else sprp32Loop n (s - 1) x

theorem sprp32_eq_millerRabinRound {n : Nat} (h0 : 0 < n) (hn : n < 2 ^ 32) (a : Nat) :
    sprp32 n a = millerRabinRound n a := by
  have exponent : (n - 1) / 2 ^ ctz (n - 1) < 2 ^ 32 := (Nat.div_le_self _ _).trans_lt (by omega)
  simp only [sprp32, millerRabinRound, powmod32_eq h0 exponent]

/-- On forms, the 64-bit squaring loop decides as the plain loop does on the residues (R246). -/
theorem sprp64Loop_montForm {n : Nat} (hn : n < 2 ^ 64) (hodd : n % 2 = 1) (h3 : 3 ≤ n) (count x : Nat) :
    sprp64Loop n (montInv n) (montForm n 1) (montForm n (n - 1)) count (montForm n x) = sprp32Loop n count x := by
  induction count generalizing x with
  | zero => rfl
  | succ count ih =>
    have hy : mulmod32 x x n < n := mulmod32_lt (by omega)
    simp only [sprp64Loop, sprp32Loop, montMul_montForm hn hodd, ih, montForm_inj hodd hy (show n - 1 < n by omega),
      montForm_inj hodd hy (show 1 < n by omega)]

theorem sprp64_eq_millerRabinRound {n : Nat} (hn : n < 2 ^ 64) (hodd : n % 2 = 1) (h3 : 3 ≤ n) (a : Nat) :
    sprp64 n a (montInv n) (montOne n) = millerRabinRound n a := by
  have exponent : (n - 1) / 2 ^ ctz (n - 1) < 2 ^ 64 := (Nat.div_le_self _ _).trans_lt (by omega)
  have power : a ^ ((n - 1) / 2 ^ ctz (n - 1)) % n < n := Nat.mod_lt _ (by omega)
  have zero : montForm n a = 0 ↔ a % n = 0 := by
    have h := montForm_inj hodd (Nat.mod_lt a (by omega)) (show 0 < n by omega)
    rwa [montForm_mod, show montForm n 0 = 0 by simp [montForm]] at h
  simp only [sprp64, millerRabinRound, toMont_eq, zero, montPow_montForm hn hodd h3 exponent,
    negOne_eq_montForm hn hodd h3]
  simp only [montOne_eq_montForm hodd h3, sprp64Loop_montForm hn hodd h3,
    montForm_inj hodd power (show n - 1 < n by omega), montForm_inj hodd power (show 1 < n by omega)]

/-- The squaring loop passes exactly when one of its squarings reaches n - 1; after a 1 none does (R170). -/
theorem sprp32Loop_eq_one_iff {n : Nat} (h3 : 3 ≤ n) (count x : Nat) :
    sprp32Loop n count x = 1 ↔ ∃ k < count, x ^ 2 ^ (k + 1) % n = n - 1 := by
  induction count generalizing x with
  | zero => simp [sprp32Loop]
  | succ count ih =>
    have later (k : Nat) : x ^ 2 ^ (k + 1) % n = mulmod32 x x n ^ 2 ^ k % n := by
      rw [mulmod32, ← Nat.pow_mod, ← sq, ← pow_mul, ← pow_succ']
    have first : mulmod32 x x n ^ 2 ^ 0 % n = mulmod32 x x n := by
      rw [pow_zero, pow_one, Nat.mod_eq_of_lt (mulmod32_lt (by omega))]
    simp only [sprp32Loop, later, Nat.exists_lt_succ_left, first]
    split
    · next hy => simp [hy]
    · next hy =>
      split
      · next hone =>
        have stuck : 1 % n ≠ n - 1 := by
          rw [Nat.mod_eq_of_lt (by omega)]
          omega
        simp [hone, stuck, show 1 ≠ n - 1 by omega]
      · simp [ih, hy]

/-- A number has one split into an odd part and a power of two. -/
theorem odd_mul_two_pow_inj {d s d' s' : Nat} (hd : d % 2 = 1) (hd' : d' % 2 = 1) (h : d * 2 ^ s = d' * 2 ^ s') :
    d = d' ∧ s = s' := by
  have le_of_eq {d s d' s' : Nat} (hd' : d' % 2 = 1) (h : d * 2 ^ s = d' * 2 ^ s') : s ≤ s' := by
    have coprime : Nat.Coprime (2 ^ s) d' := (Nat.coprime_two_left.2 (Nat.odd_iff.2 hd')).pow_left s
    exact (Nat.pow_dvd_pow_iff_le_right (by norm_num)).1 (coprime.dvd_of_dvd_mul_left (Dvd.intro_left d h))
  obtain rfl : s = s' := (le_of_eq hd' h).antisymm (le_of_eq hd h.symm)
  exact ⟨Nat.eq_of_mul_eq_mul_right (by positivity) h, rfl⟩

/-- The strong-probable-prime property, for the one split of n - 1 (R172). -/
theorem strongProbablePrime_iff {n a d s : Nat} (hsplit : n - 1 = d * 2 ^ s) (hd : d % 2 = 1) :
    StrongProbablePrime n a ↔ a % n = 0 ∨ a ^ d % n = 1 ∨ ∃ k < s, a ^ (d * 2 ^ k) % n = n - 1 := by
  refine or_congr_right ⟨fun ⟨d', s', hsplit', hd', h⟩ => ?_, fun h => ⟨d, s, hsplit, hd, h⟩⟩
  obtain ⟨rfl, rfl⟩ := odd_mul_two_pow_inj hd hd' (hsplit.symm.trans hsplit')
  exact h

/-- The round passes exactly when n is a strong probable prime to base a (R172). -/
theorem millerRabinRound_eq_one_iff {n : Nat} (hn : n < 2 ^ 64) (hodd : n % 2 = 1) (h3 : 3 ≤ n) (a : Nat) :
    millerRabinRound n a = 1 ↔ StrongProbablePrime n a := by
  obtain ⟨hsplit, hd⟩ := ctz_spec (v := n - 1) (by omega) (by omega)
  simp only [strongProbablePrime_iff hsplit.symm hd, millerRabinRound]
  generalize (n - 1) / 2 ^ ctz (n - 1) = d at hsplit hd ⊢
  obtain ⟨count, hs⟩ : ∃ count, ctz (n - 1) = count + 1 := by
    refine Nat.exists_eq_succ_of_ne_zero fun h0 => ?_
    rw [h0] at hsplit
    omega
  have squarings (k : Nat) : (a ^ d % n) ^ 2 ^ (k + 1) % n = a ^ (d * 2 ^ (k + 1)) % n := by
    rw [← Nat.pow_mod, ← pow_mul]
  rw [hs, Nat.add_sub_cancel, Nat.exists_lt_succ_left, pow_zero, mul_one]
  split_ifs with h0 hx
  · simp [h0]
  · exact iff_of_true rfl (.inr (hx.imp_right fun h => .inl h))
  · simp only [sprp32Loop_eq_one_iff h3, squarings]
    tauto

/-- SPRP32's function decides the property (R172). -/
theorem sprp32_eq_one_iff {n : Nat} (hn : n < 2 ^ 32) (hodd : n % 2 = 1) (h3 : 3 ≤ n) (a : Nat) :
    sprp32 n a = 1 ↔ StrongProbablePrime n a := by
  rw [sprp32_eq_millerRabinRound (by omega) hn, millerRabinRound_eq_one_iff (by omega) hodd h3]

/-- With the context of n, SPRP64's function decides the property (R247). -/
theorem sprp64_eq_one_iff {n : Nat} (hn : n < 2 ^ 64) (hodd : n % 2 = 1) (h3 : 3 ≤ n) (a : Nat) :
    sprp64 n a (montInv n) (montOne n) = 1 ↔ StrongProbablePrime n a := by
  rw [sprp64_eq_millerRabinRound hn hodd h3, millerRabinRound_eq_one_iff hn hodd h3]

/-! ### Primes -/

/-- Without zero divisors, only 1 and -1 square to 1: a root of 1 by squarings is 1 or passes through -1. -/
theorem eq_one_or_exists_pow_eq_neg_one {R : Type} [CommRing R] [NoZeroDivisors R] {y : R} {s : Nat}
    (h : y ^ 2 ^ s = 1) : y = 1 ∨ ∃ k < s, y ^ 2 ^ k = -1 := by
  induction s with
  | zero => exact .inl (by simpa using h)
  | succ s ih =>
    rw [pow_succ, pow_mul, sq, mul_self_eq_one_iff] at h
    rcases h with hone | hneg
    · exact (ih hone).imp_right fun ⟨k, hk, h⟩ => ⟨k, by omega, h⟩
    · exact .inr ⟨s, by omega, hneg⟩

/-- A prime is a strong probable prime to every base (R172): Fermat's theorem in the field of residues. -/
theorem strongProbablePrime_of_prime {n : Nat} (hp : n.Prime) (a : Nat) : StrongProbablePrime n a := by
  have : Fact n.Prime := ⟨hp⟩
  have two_le := hp.two_le
  obtain ⟨s, d, hd, hsplit⟩ := Nat.exists_eq_two_pow_mul_odd (n := n - 1) (by omega)
  by_cases ha : (a : ZMod n) = 0
  · exact .inl (Nat.dvd_iff_mod_eq_zero.1 ((ZMod.natCast_eq_zero_iff a n).1 ha))
  · refine .inr ⟨d, s, by rw [hsplit, mul_comm], Nat.odd_iff.1 hd, ?_⟩
    have fermat : ((a : ZMod n) ^ d) ^ 2 ^ s = 1 := by
      rw [← pow_mul, mul_comm, ← hsplit, ZMod.pow_card_sub_one_eq_one ha]
    refine (eq_one_or_exists_pow_eq_neg_one fermat).imp (fun h => ?_) fun ⟨k, hk, h⟩ => ⟨k, hk, ?_⟩
    · have residue : a ^ d ≡ 1 [MOD n] := (ZMod.natCast_eq_natCast_iff _ _ n).1 (by push_cast; exact h)
      rw [residue, Nat.mod_eq_of_lt hp.one_lt]
    · have residue : a ^ (d * 2 ^ k) ≡ n - 1 [MOD n] := (ZMod.natCast_eq_natCast_iff _ _ n).1 <| by
        rw [Nat.cast_pow, pow_mul, h, Nat.cast_sub hp.one_le, ZMod.natCast_self, Nat.cast_one, zero_sub]
      rw [residue, Nat.mod_eq_of_lt (by omega)]

/-! ### Results in RES_LO -/

/-- A command whose result is below 2^64 completes with that value in RES_LO. -/
theorem completesWith_resultOf {i : Instr} {s : State} {v : Nat} (hi : i ≠ .nop) (hb : s.busy = false)
    (ho : outcomeOf i s = .ok (resultOf v)) (hv : v < radix) :
    ∃ r : Word, CompletesWith i s (.result r 0) ∧ r.toNat = v :=
  ⟨toWord v, completesWith hi hb ho, toWord_toNat hv⟩

/-- A verdict is the word 0 or 1 (R43). -/
theorem toWord_verdict {v : Nat} (h : v ≤ 1) :
    (toWord v = 0 ∨ toWord v = 1) ∧ (toWord v = 1 ↔ v = 1) := by
  rcases Nat.le_one_iff_eq_zero_or_eq_one.1 h with rfl | rfl <;> decide

/-- Residues of a nonzero 32-bit modulus fit a register. -/
theorem mod_low32_lt (x : Nat) {v : Word} (h : low32 v ≠ 0) : x % low32 v < radix :=
  (Nat.mod_lt x (Nat.pos_of_ne_zero h)).trans ((low32_lt v).trans (by norm_num))

/-! ### The obligations -/

/-- Settles O27. -/
theorem mulmod32CompletesForNonzeroModulus : Obligations.Mulmod32CompletesForNonzeroModulus :=
  ⟨rfl, fun _ hb => ⟨fun hn => completesWith_resultOf (by decide) hb (if_neg hn) (mod_low32_lt _ hn),
    fun hn => endsWithError (by decide) hb (if_pos hn)⟩⟩

/-- Settles O28: the exponent E[31:0] fits the loop's 32 iterations. -/
theorem powmod32CompletesForNonzeroModulus : Obligations.Powmod32CompletesForNonzeroModulus := by
  refine ⟨rfl, fun s hb => ⟨fun hn => ?_, fun hn => endsWithError (by decide) hb (if_pos hn)⟩⟩
  have power : powmod32 (low32 s.regA) (low32 s.regE) (low32 s.regN) =
      low32 s.regA ^ low32 s.regE % low32 s.regN := powmod32_eq (Nat.pos_of_ne_zero hn) (low32_lt s.regE)
  obtain ⟨r, hr, hv⟩ := completesWith_resultOf (i := .powmod32) (by decide) hb (if_neg hn)
    (power.trans_lt (mod_low32_lt _ hn))
  exact ⟨r, hr, hv.trans power⟩

/-- Settles O29: in SPRP32's domain the function decides the property. -/
theorem sprp32CompletesWithTheVerdict : Obligations.Sprp32CompletesWithTheVerdict := by
  refine ⟨rfl, fun s hb => ⟨fun hodd h3 => ?_, fun hn => endsWithError (by decide) hb (if_pos hn)⟩⟩
  have domain : ¬ (low32 s.regN % 2 = 0 ∨ low32 s.regN < 3) := by
    rw [low32]
    omega
  obtain ⟨bit, one⟩ := toWord_verdict (sprp32_le (low32 s.regN) (low32 s.regA))
  exact ⟨_, completesWith (by decide) hb (if_neg domain), bit,
    one.trans (sprp32_eq_one_iff (low32_lt s.regN) hodd h3 _)⟩

/-- Settles O39: a prime is a strong probable prime to every base, and that is what either round decides. -/
theorem primesPassEveryRound : Obligations.PrimesPassEveryRound := by
  have odd {n : Nat} (h3 : 3 ≤ n) (hp : n.Prime) : n % 2 = 1 := hp.eq_two_or_odd.resolve_left (by omega)
  exact ⟨fun n a hn _ h3 hp => (sprp32_eq_one_iff hn (odd h3 hp) h3 a).2 (strongProbablePrime_of_prime hp a),
    fun n a hn _ h3 hp => (sprp64_eq_one_iff hn (odd h3 hp) h3 a).2 (strongProbablePrime_of_prime hp a)⟩

end Sys2Proof.Machine

/-! PROOFS. The commands of the 64-bit Montgomery engine (42_montgomery.md): the word arithmetic of the claims computes
what the model's functions compute on naturals, and each command completes with its function's value. -/

namespace Sys2Proof.Machine

open Sys2Proof.Claims

/-! ### Words and naturals -/

theorem full_eq_zero_iff {v : Word} : full v = 0 ↔ v = 0 := BitVec.toNat_eq (y := 0#64) |>.symm

/-- The low half of a product of words is its wrapped product (R191). -/
theorem full_mul (x y : Word) : full (x * y) = lo64 (full x * full y) := BitVec.toNat_mul x y

/-- `hiW` is the high half of the exact product (R191). -/
theorem full_hiW (x y : Word) : full (hiW x y) = hi64 (full x * full y) := by
  have fits : x.toNat * y.toNat < 2 ^ 128 := by
    simpa [← pow_add] using Nat.mul_lt_mul'' x.isLt y.isLt
  have widen (v : Word) : v.toNat % 2 ^ 128 = v.toNat := Nat.mod_eq_of_lt (v.isLt.trans (by norm_num))
  simp only [full, hiW, hi64, BitVec.toNat_setWidth, BitVec.toNat_ushiftRight, BitVec.toNat_mul, widen,
    Nat.mod_eq_of_lt fits, Nat.shiftRight_eq_div_pow]

/-- Wrapping an integer is casting it to a word, so that word arithmetic is integer arithmetic wrapped (R11). -/
theorem full_intCast (v : Int) : full (v : Word) = wrap64 v := BitVec.toNat_ofInt v

@[simp] theorem ofNat_full (v : Word) : BitVec.ofNat 64 (full v) = v := toWord_full v

/-- One Hensel iteration on words (R196). -/
theorem full_invStep (n est : Word) : full ((2 - est * n) * est) = montInvStep (full n) (full est) := by
  have factor : full (2 - est * n) = wrap64 (2 - (full est : Int) * full n) := by
    simp [← full_intCast]
  rw [full_mul, factor, montInvStep, lo64]

theorem full_invStart (n : Word) : full ((3 * n) ^^^ 2) = montInvStart (full n) := by
  rw [montInvStart, full, BitVec.toNat_xor, BitVec.toNat_mul]
  rfl

/-- `invW` is `mont_inv` (R196). -/
theorem full_invW (n : Word) : full (invW n) = montInv (full n) := by
  simp only [invW, montInv, full_invStep, full_invStart]

/-- `reduceW` is `mont_reduce`, for every high half (R200). -/
theorem full_reduceW (lo hi n ninv : Word) :
    full (reduceW lo hi n ninv) = montReduce (full lo) (full hi) (full n) (full ninv) := by
  have ht : montReduceT (full lo) (full n) (full ninv) = full (hiW (lo * ninv) n) := by
    rw [full_hiW, full_mul, montReduceT, lo64]
  simp only [reduceW, montReduce, ht]
  generalize hiW (lo * ninv) n = t
  have borrowed : full (hi - t + n) = wrap64 ((full hi : Int) - full t + full n) := by simp [← full_intCast]
  rw [apply_ite full, borrowed]
  split
  · next h => exact (BitVec.toNat_sub_of_le h).trans (if_pos h).symm
  · next h => exact (if_neg h).symm

/-- `mulW` is `mont_mul` (R205). -/
theorem full_mulW (a b n ninv : Word) :
    full (mulW a b n ninv) = montMul (full a) (full b) (full n) (full ninv) := by
  rw [mulW, full_reduceW, full_mul, full_hiW, montMul, wmul]

/-- The pass of `powW` over one bit of the exponent: the accumulator and the base (R224). -/
def powStepW (e n ninv : Word) (p : Word × Word) (k : Nat) : Word × Word :=
  (if e.getLsbD k then mulW p.1 p.2 n ninv else p.1, mulW p.2 p.2 n ninv)

theorem powW_eq_foldl (base e n ninv one : Word) :
    powW base e n ninv one = ((List.range' 0 64).foldl (powStepW e n ninv) (one, base)).1 := by
  rw [← List.range_eq_range']
  rfl

/-- The bit `k` of a word is the parity of its quotient by 2^k. -/
theorem getLsbD_iff_div_mod (e : Word) (k : Nat) : e.getLsbD k = true ↔ full e / 2 ^ k % 2 = 1 := by
  rw [BitVec.getLsbD, Nat.testBit_eq_decide_div_mod_eq, decide_eq_true_iff, full]

/-- The pass over the bits from `k` on is the loop on the exponent shifted by `k` (R224). -/
theorem full_foldl_powStepW (e n ninv : Word) (count k : Nat) (p : Word × Word) :
    full ((List.range' k count).foldl (powStepW e n ninv) p).1 =
      montPowLoop (full n) (full ninv) count (full p.1) (full p.2) (full e / 2 ^ k) := by
  induction count generalizing k p with
  | zero => rfl
  | succ count ih =>
    rw [List.range'_succ, List.foldl_cons, ih, montPowLoop_succ, Nat.div_div_eq_div_mul, ← pow_succ]
    simp only [powStepW, full_mulW, getLsbD_iff_div_mod, apply_ite full]

/-- `powW` is `mont_pow` (R224). -/
theorem full_powW (base e n ninv one : Word) :
    full (powW base e n ninv one) = montPow (full base) (full e) (full n) (full ninv) (full one) := by
  rw [powW_eq_foldl, full_foldl_powStepW, pow_zero, Nat.div_one, montPow]

/-- The power with exponent 0 is Montgomery one (R224). -/
theorem powW_zero (base n ninv one : Word) : powW base 0 n ninv one = one :=
  BitVec.eq_of_toNat_eq ((full_powW base 0 n ninv one).trans (montPowLoop_zero _ _ _ _ _))

/-! ### The functions -/

/-- An even number has no inverse modulo 2^64 (R198). -/
theorem even_mul_mod_ne_one {n : Nat} (heven : n % 2 = 0) (x : Nat) : n * x % 2 ^ 64 ≠ 1 := by
  have even : n * x % 2 = 0 := by rw [Nat.mul_mod, heven, Nat.zero_mul, Nat.zero_mod]
  omega

/-- Without a borrow the reduction is the difference (R200). -/
theorem montReduce_of_le {lo hi n ninv : Nat} (h : montReduceT lo n ninv ≤ hi) :
    montReduce lo hi n ninv = hi - montReduceT lo n ninv := if_pos h

/-- The high half of a product of canonical values is canonical (R207). -/
theorem hi64_mul_lt_modulus {a b n : Nat} (hn : n < 2 ^ 64) (ha : a < n) (hb : b < n) : hi64 (a * b) < n :=
  (Nat.mod_le _ _).trans_lt (Nat.div_lt_of_lt_mul (Nat.mul_lt_mul'' (ha.trans hn) hb))

theorem fromMont_lt_modulus {n x : Nat} (hn : n < 2 ^ 64) (hodd : n % 2 = 1) (hx : x < 2 ^ 64) :
    fromMont x n (montInv n) < n := montReduce_lt_modulus hx hn hodd (by omega)

/-- Conversion out of the form divides by the radix (R216). -/
theorem fromMont_mul_mod {n x : Nat} (hn : n < 2 ^ 64) (hodd : n % 2 = 1) (hx : x < 2 ^ 64) :
    fromMont x n (montInv n) * 2 ^ 64 % n = x % n := by
  rw [fromMont, montReduce_mul_mod hx hn hodd, Nat.zero_mul, Nat.zero_add]

/-- Conversion into the form and out of it reduces modulo n (R216). -/
theorem fromMont_toMont {n : Nat} (hn : n < 2 ^ 64) (hodd : n % 2 = 1) (x : Nat) :
    fromMont (toMont x n) n (montInv n) = x % n := by
  have form : toMont x n < 2 ^ 64 := (toMont_lt (by omega)).trans hn
  have scaled : fromMont (toMont x n) n (montInv n) * 2 ^ 64 % n = x * 2 ^ 64 % n := by
    rw [fromMont_mul_mod hn hodd form, toMont_eq, montForm, Nat.mod_mod]
  have residues := mod_eq_of_mul_radix hodd scaled
  rwa [Nat.mod_eq_of_lt (fromMont_lt_modulus hn hodd form)] at residues

/-- Montgomery one is the radix modulo n (R220). -/
theorem montOne_mod (n : Nat) : montOne n % n = 2 ^ 64 % n := Nat.mod_add_mod (radix - 1) n 1

theorem montOne_of_dvd {n : Nat} (h0 : 0 < n) (h : n ∣ 2 ^ 64) : montOne n = n :=
  (montOne_le h0).antisymm <| Nat.le_of_dvd (montOne_pos n) <|
    Nat.dvd_of_mod_eq_zero ((montOne_mod n).trans (Nat.mod_eq_zero_of_dvd h))

theorem montOne_of_not_dvd {n : Nat} (h0 : 0 < n) (h : ¬ n ∣ 2 ^ 64) : montOne n = 2 ^ 64 % n := by
  have below : montOne n ≠ n := fun heq =>
    h (Nat.dvd_of_mod_eq_zero (by rw [← montOne_mod, heq, Nat.mod_self]))
  rw [← montOne_mod, Nat.mod_eq_of_lt (lt_of_le_of_ne (montOne_le h0) below)]

/-! ### Results in RES_LO -/

/-- A command whose result is the value of a word completes with that word in RES_LO. -/
theorem completesWith_word {i : Instr} {s : State} {v : Nat} {r : Word} (hi : i ≠ .nop) (hb : s.busy = false)
    (ho : outcomeOf i s = .ok (resultOf v)) (hr : full r = v) : CompletesWith i s (.result r 0) :=
  completesWith hi hb (by rw [ho, ← hr, resultOf, toWord_full])

/-- A command that needs the context completes with its result, or ends with ENOCTX without a context (R41). -/
theorem completesWith_or_enoctx {i : Instr} {s : State} {v : Nat} {r : Word} (hi : needsContext i = true)
    (hb : s.busy = false) (ho : s.ctxValid = true → outcomeOf i s = .ok (resultOf v)) (hr : full r = v) :
    (s.ctxValid = true → CompletesWith i s (.result r 0)) ∧ (s.ctxValid = false → EndsWithError i s .enoctx) := by
  have not_nop : i ≠ .nop := by
    rintro rfl
    cases hi
  exact ⟨fun hc => completesWith_word not_nop hb (ho hc) hr,
    fun hc => endsWithError not_nop hb (outcomeOf_enoctx hi hc)⟩

/-- Montgomery one fits a register (R220). -/
theorem montOne_full_lt {v : Word} (h : full v ≠ 0) : montOne (full v) < radix :=
  (montOne_le (Nat.pos_of_ne_zero h)).trans_lt (full_lt v)

/-! ### The obligations -/

/-- Settles O17: the two halves of the product fit their registers. -/
theorem wmulGivesTheExactProduct : Obligations.WmulGivesTheExactProduct := by
  refine ⟨rfl, fun s hb => ⟨_, _, completesWith (by decide) hb rfl, ?_⟩⟩
  rw [wmul, toWord_toNat (lo64_lt _), toWord_toNat (hi64_lt _)]
  exact wmul_exact (full_lt s.regA) (full_lt s.regB)

/-- Settles O18: no check fails, and the four iterations on words are those of `mont_inv`. -/
theorem montInvCompletesForEveryN : Obligations.MontInvCompletesForEveryN :=
  ⟨rfl, fun s hb => completesWith_word (by decide) hb rfl (full_invW s.regN)⟩

/-- Settles O19: the value is at most N, so that it fits RES_LO. -/
theorem montOneCompletesForNonzeroN : Obligations.MontOneCompletesForNonzeroN := by
  refine ⟨rfl, fun s hb => ⟨fun hn => ?_, fun hn => endsWithError (by decide) hb (if_pos (full_eq_zero_iff.2 hn))⟩⟩
  have nonzero : full s.regN ≠ 0 := full_eq_zero_iff.not.2 hn
  exact completesWith_resultOf (by decide) hb (if_neg nonzero) (montOne_full_lt nonzero)

/-- Settles O20: an odd N is not 0, so that Montgomery one fits ONE. -/
theorem montCtxCompletesForOddN : Obligations.MontCtxCompletesForOddN := by
  refine ⟨rfl, fun s hb => ⟨fun hodd => ?_, fun heven => endsWithError (by decide) hb (if_pos heven)⟩⟩
  have odd : ¬ full s.regN % 2 = 0 := by rw [full]; omega
  have nonzero : full s.regN ≠ 0 := fun h => odd (by rw [h])
  refine ⟨toWord (montOne (full s.regN)), completesWith (by decide) hb ?_, toWord_toNat (montOne_full_lt nonzero)⟩
  rw [← toWord_full (invW s.regN), full_invW]
  exact if_neg odd

/-- Settles O21: the value is a residue of N, so that it fits RES_LO. -/
theorem toMontCompletesForNonzeroN : Obligations.ToMontCompletesForNonzeroN := by
  refine ⟨rfl, fun s hb => ⟨fun hn => ?_, fun hn => endsWithError (by decide) hb (if_pos (full_eq_zero_iff.2 hn))⟩⟩
  have nonzero : full s.regN ≠ 0 := full_eq_zero_iff.not.2 hn
  obtain ⟨r, hr, hv⟩ := completesWith_resultOf (i := .toMont) (by decide) hb (if_neg nonzero)
    ((toMont_lt (Nat.pos_of_ne_zero nonzero)).trans (full_lt s.regN))
  exact ⟨r, hr, hv.trans (toMont_eq _ _)⟩

/-- Settles O22: the value is the reduction with high half 0. -/
theorem fromMontCompletesWithContext : Obligations.FromMontCompletesWithContext :=
  ⟨rfl, fun _ hb => completesWith_or_enoctx rfl hb (fun hc => if_pos hc) (full_reduceW _ 0 _ _)⟩

/-- Settles O23: the reduction is exact on words for every high half B. -/
theorem montReduceCompletesWithContext : Obligations.MontReduceCompletesWithContext :=
  ⟨rfl, fun _ hb => completesWith_or_enoctx rfl hb (fun hc => if_pos hc) (full_reduceW _ _ _ _)⟩

/-- Settles O24. -/
theorem montMulCompletesWithContext : Obligations.MontMulCompletesWithContext :=
  ⟨rfl, fun _ hb => completesWith_or_enoctx rfl hb (fun hc => if_pos hc) (full_mulW _ _ _ _)⟩

/-- Settles O25: the pass over the bits of E is the loop on E. -/
theorem montPowCompletesWithContext : Obligations.MontPowCompletesWithContext := by
  refine ⟨rfl, fun s hb => ?_⟩
  obtain ⟨completes, enoctx⟩ := completesWith_or_enoctx (i := .montPow) rfl hb (fun hc => if_pos hc)
    (full_powW _ _ _ _ _)
  exact ⟨fun hc => ⟨completes hc, fun he => he ▸ powW_zero _ _ _ _⟩, enoctx⟩

/-- Settles O31: from 5 right bits, each iteration doubles them. -/
theorem henselLiftingInvertsOddN : Obligations.HenselLiftingInvertsOddN :=
  ⟨fun _ _ hodd => mul_montInv_mod hodd, fun _ _ hodd => mul_montInvStart_mod hodd,
    fun _ _ _ _ h => montInvStep_mul_modEq h, fun _ x heven => even_mul_mod_ne_one heven x⟩

/-- Settles O32: with `n ≤ hi` there is no borrow, as `t < n`. -/
theorem reductionDividesByTheRadix : Obligations.ReductionDividesByTheRadix := by
  intro lo hi n hlo _ hn hodd
  have ht := montReduceT_lt_modulus hlo hn hodd
  exact ⟨montReduceT_exact hlo hn hodd, montReduce_mul_mod hlo hn hodd, ht, montReduce_lt_modulus hlo hn hodd,
    fun hhi => montReduce_of_le (ht.le.trans hhi)⟩

/-- Settles O33: a canonical product has a canonical high half, and forms are canonical. -/
theorem montgomeryProductOfForms : Obligations.MontgomeryProductOfForms :=
  fun _ hn hodd => ⟨fun _ _ ha hb => ⟨hi64_mul_lt_modulus hn ha hb, montMul_lt_modulus hn hodd ha hb,
    montMul_mul_mod hn hodd (ha.trans hn) (hb.trans hn)⟩, montMul_montForm hn hodd⟩

/-- Settles O34: the radix cancels modulo an odd n. -/
theorem fromMontUndoesToMont : Obligations.FromMontUndoesToMont :=
  fun _ x hn hodd hx => ⟨fromMont_toMont hn hodd x, fromMont_lt_modulus hn hodd hx, fromMont_mul_mod hn hodd hx⟩

/-- Settles O35: the value is 2^64 modulo n, in [1, n]. -/
theorem montgomeryOneIsRadixModN : Obligations.MontgomeryOneIsRadixModN :=
  fun n h0 _ => ⟨rfl, montOne_pos n, montOne_le h0, montOne_of_not_dvd h0, montOne_of_dvd h0⟩

/-- Settles O36: the loop on forms is the loop on residues. -/
theorem montgomeryPowerOfForms : Obligations.MontgomeryPowerOfForms :=
  fun _ _ _ hn hodd h3 he => montPow_montForm hn hodd h3 he

end Sys2Proof.Machine

/-! PROOFS. The 64-bit Miller-Rabin witness test (43_sprp64.md): `neg_one`, the context as the round reads it, and
SPRP64, which with that context decides what SPRP32 decides. -/

namespace Sys2Proof.Machine

open Sys2Proof.Claims

/-! ### `neg_one` and the context -/

/-- On an underflow `neg_one` is the wrapped difference plus n (R241). -/
theorem negOne_of_lt {n one : Nat} (hone : one < 2 ^ 64) (h : n < one) :
    negOne n one = ((n + 2 ^ 64 - one) % 2 ^ 64 + n) % 2 ^ 64 := by
  have wrapped : wrap64 ((n : Int) - one) = (n + 2 ^ 64 - one) % 2 ^ 64 := by
    have cast := wrap64_cast ((n : Int) - one)
    rw [show (radix : Int) = 2 ^ 64 by rfl] at cast
    omega
  simp only [negOne, if_pos h, wrapped]

/-- An odd n from 3 on does not divide the radix, so that Montgomery one stays below it (R241). -/
theorem montOne_lt_modulus {n : Nat} (hodd : n % 2 = 1) (h3 : 3 ≤ n) : montOne n < n := by
  rw [montOne_eq_montForm hodd h3]
  exact montForm_lt (by omega) 1

/-- A valid context holds the inverse and Montgomery one of an odd N, as numbers (R40). -/
theorem ContextInv.full_eq {s : State} (h : ContextInv s) (hc : s.ctxValid = true) :
    full s.regN % 2 = 1 ∧ full s.ninv = montInv (full s.regN) ∧ full s.one = montOne (full s.regN) := by
  obtain ⟨hodd, hninv, hone⟩ := h hc
  have nonzero : full s.regN ≠ 0 := by omega
  rw [hninv, hone]
  exact ⟨hodd, toWord_toNat (montInv_lt _), toWord_toNat (montOne_full_lt nonzero)⟩

/-! ### SPRP64's checks -/

/-- With a context and N in the domain both checks pass (R245). -/
theorem sprp64Outcome_ok {s : State} (hc : s.ctxValid = true) (h3 : 3 ≤ full s.regN) :
    sprp64Outcome s = .ok (resultOf (sprp64 (full s.regN) (full s.regA) (full s.ninv) (full s.one))) := by
  rw [sprp64Outcome, if_pos hc, if_neg (Nat.not_lt.2 h3)]

/-- With a context, N below the domain fails the second check (R245). -/
theorem sprp64Outcome_edomain {s : State} (hc : s.ctxValid = true) (h : full s.regN < 3) :
    sprp64Outcome s = .error .edomain := by
  rw [sprp64Outcome, if_pos hc, if_pos h]

/-! ### The obligations -/

/-- Settles O26: the verdict is a bit for any context, and with the context of N the function decides the property. -/
theorem sprp64CompletesWithTheVerdict : Obligations.Sprp64CompletesWithTheVerdict := by
  refine ⟨rfl, fun s hb => ⟨fun hc h3 => ?_, fun hc => ?_, fun hc hn => ?_⟩⟩
  · obtain ⟨bit, one⟩ := toWord_verdict (sprp64_le (full s.regN) (full s.regA) (full s.ninv) (full s.one))
    refine ⟨_, completesWith (by decide) hb (sprp64Outcome_ok hc h3), bit, fun hctx => one.trans ?_⟩
    obtain ⟨hodd, hninv, hone⟩ := hctx.full_eq hc
    rw [hninv, hone]
    exact sprp64_eq_one_iff (full_lt s.regN) hodd h3 (full s.regA)
  · exact endsWithError (by decide) hb (outcomeOf_enoctx rfl hc)
  · exact endsWithError (by decide) hb (sprp64Outcome_edomain hc hn)

/-- Settles O37: with a context Montgomery one is below n, so that `neg_one` is the difference, and it is a form. -/
theorem negOneIsTheFormOfMinusOne : Obligations.NegOneIsTheFormOfMinusOne := by
  refine ⟨fun _ _ hn _ h => negOne_of_le hn h, fun _ _ _ hone h => negOne_of_lt hone h, fun n hn hodd h3 => ?_⟩
  have pos := montOne_pos n
  have below := montOne_lt_modulus hodd h3
  have difference := negOne_of_le hn below.le
  exact ⟨pos, below, by omega, by omega, negOne_eq_montForm hn hodd h3⟩

/-- Settles O38: both rounds are the Miller-Rabin round on plain residues. -/
theorem sprp64AgreesWithSprp32 : Obligations.Sprp64AgreesWithSprp32 := by
  intro n a hn _ hodd h3
  calc sprp64 n a (montInv n) (montOne n)
      = millerRabinRound n a := sprp64_eq_millerRabinRound (hn.trans (by norm_num)) hodd h3 a
    _ = sprp32 n a := (sprp32_eq_millerRabinRound (by omega) hn a).symm

end Sys2Proof.Machine

/-! PROOFS. Errors, refused transactions and the interrupt at a completion (60_exceptions.md). -/

namespace Sys2Proof.Machine

open Sys2Proof.Claims

/-! ### The check table -/

/-- The error that an outcome reports, if any (R145). -/
def reportedError : Except CmdError Writes → Option CmdError
  | .error e => some e
  | .ok _ => none

/-- A check in front of an outcome is a check in front of its row. -/
theorem reportedError_check {p : Prop} [Decidable p] {failing : Bool} {e : CmdError} {o : Except CmdError Writes}
    {rest : List (Bool × CmdError)} (hp : failing = true ↔ p) (ho : reportedError o = firstFailing rest) :
    reportedError (if p then .error e else o) = firstFailing ((failing, e) :: rest) := by
  by_cases h : p
  · simp [h, hp.2 h, reportedError, firstFailing]
  · simp [h, mt hp.1 h, ho, firstFailing]

/-- The context check in front of an outcome is the one of ENOCTX in front of its row (R41). -/
theorem reportedError_contextCheck (s : State) {o : Except CmdError Writes} {rest : List (Bool × CmdError)}
    (ho : reportedError o = firstFailing rest) :
    reportedError (if s.ctxValid then o else .error .enoctx) =
      firstFailing ((s.ctxValid == false, .enoctx) :: rest) := by
  cases h : s.ctxValid
  · rfl
  · simp [ho, firstFailing]

/-- The outcome of a command reports the first failing check of its row (R263). -/
theorem reportedError_outcomeOf (i : Instr) (s : State) :
    reportedError (outcomeOf i s) = firstFailing (checksOf i s) := by
  cases i
  case nop | wmul | montInv => rfl
  case montOne | toMont => exact reportedError_check (beq_iff_eq.trans full_eq_zero_iff.symm) rfl
  case montCtx | mulmod32 | powmod32 => exact reportedError_check beq_iff_eq rfl
  case sprp32 => exact reportedError_check (by simp [low32]) rfl
  case fromMont | montReduce | montMul | montPow => exact reportedError_contextCheck s rfl
  case sprp64 => exact reportedError_contextCheck s (reportedError_check decide_eq_true_iff rfl)

/-- While BUSY = 0 a command leaves the first failing check of its row in ERR and ERRCODE (R263). -/
theorem exec_error {i : Instr} {s : State} (hb : s.busy = false) :
    ∃ t, exec i s = .next t ∧ t.error = firstFailing (checksOf i s) := by
  rcases exec_cases i s with ⟨hb', -⟩ | ⟨-, rfl, e⟩ | ⟨-, -, err, ho, e⟩ | ⟨-, -, w, ho, e⟩
  · exact nomatch hb.symm.trans hb'
  · exact ⟨_, e, rfl⟩
  · exact ⟨_, e, by rw [← reportedError_outcomeOf, ho]; rfl⟩
  · exact ⟨_, e, by rw [← reportedError_outcomeOf, ho]; rfl⟩

/-! ### The end of a CMD write -/

/-- While BUSY = 0 a CMD write of any word ends at once, with or without an error, or launches a command. -/
theorem writeCmd_idle_cases (c : Word) {s : State} (hb : s.busy = false) :
    (∃ e, writeCmd c s = .next ((s.accept c).finish e)) ∨ ∃ i w, writeCmd c s = .next (launched i s w) := by
  unfold writeCmd
  cases hd : decode? c with
  | none => exact .inl ⟨_, issueIllegal_idle hb⟩
  | some i =>
    obtain rfl := eq_encode_of_decode? hd
    rcases exec_cases i s with ⟨hb', -⟩ | ⟨-, -, e⟩ | ⟨-, -, err, -, e⟩ | ⟨-, -, w, -, e⟩
    · exact nomatch hb.symm.trans hb'
    · exact .inl ⟨_, e⟩
    · exact .inl ⟨_, e⟩
    · exact .inr ⟨i, w, e⟩

/-- An edge that carries a register write presents that write's transaction. -/
theorem req_of_carriesWrite {c : Cycle} {r : Reg} {v : Word} (h : CarriesWrite c r v) :
    c.req = some (writeReq r v) := by
  obtain ⟨⟨kind, off, size, wdata⟩, hq, rfl, rfl, rfl, rfl⟩ := h
  exact hq

/-! ### ERR and ERRCODE as STATUS is read -/

theorem readReg_status_err (s : State) : (readReg .status s).getLsbD 2 = s.err :=
  (statusWord_getLsbD s 2).trans (by simp)

theorem readReg_status_errCode (s : State) : (readReg .status s).toNat / 2 ^ 8 % 2 ^ 4 = s.errCode.toNat := by
  rw [readReg, statusWord_div, Nat.mod_eq_of_lt s.errCode.isLt]

theorem errorCode_range (e : CmdError) : 1 ≤ (errorCode e).toNat ∧ (errorCode e).toNat ≤ 4 := by
  cases e <;> decide

theorem err_eq_false_iff (s : State) : s.err = false ↔ s.error = none := by simp [State.err]

theorem errCode_eq_zero_of_err {s : State} (h : s.err = false) : s.errCode.toNat = 0 := by
  rw [State.errCode, (err_eq_false_iff s).1 h]
  rfl

theorem errCode_range_of_err {s : State} (h : s.err = true) : 1 ≤ s.errCode.toNat ∧ s.errCode.toNat ≤ 4 := by
  obtain ⟨e, he⟩ := Option.isSome_iff_exists.1 h
  rw [State.errCode, he]
  exact errorCode_range e

/-! ### The answer of a transaction -/

/-- A register write that does more than answer is answered OKAY (R87). -/
theorem WriteDoes.reply {r : Reg} {v : Word} {s t : State} (h : WriteDoes r v s t) :
    t = { s with reply := t.reply } ∨ t.reply = some okWrite := by
  cases h
  case answered a h => subst h; exact .inl rfl
  all_goals subst t; exact .inr rfl

/-! ### The completing edge -/

/-- With one cycle left the edge is its transaction, on the state as it was, and then the completion (R266). -/
theorem step_completing {s u : State} {f : InFlight} {q : Req} {rest : List Cycle} (hf : s.inFlight = some f)
    (hone : f.remaining = 1) (hin : s.inputs = { rst := false, req := some q } :: rest)
    (hu : transact q s.takeCycle = .next u) : step s = .next (u.complete f) := by
  have busy : s.takeCycle.busy = true := (busy_iff _).2 ⟨f, hf⟩
  have host : hostPhase (some q) s.takeCycle = .next u := hu
  rw [step_present hin, runEdge_eq host, enginePhase_busy busy,
    engineTick_complete ((hostPhase_busy busy host).inFlight.trans hf) hone.le]

@[simp] theorem readReg_takeCycle (x : Reg) (s : State) : readReg x s.takeCycle = readReg x s := by
  cases x <;> rfl

@[simp] theorem complete_reply (s : State) (f : InFlight) : (s.complete f).reply = s.reply := by simp [complete_eq]

@[simp] theorem complete_werr (s : State) (f : InFlight) : (s.complete f).werr = s.werr := by simp [complete_eq]

/-- A completion leaves CMD and the operand registers (R36, R144). -/
theorem readReg_complete_guarded {x : Reg} (hx : Guarded x) (s : State) (f : InFlight) :
    readReg x (s.complete f) = readReg x s := by
  rcases hx with rfl | rfl | rfl | rfl | rfl <;> simp [readReg, complete_eq]

/-! ### DONE_IP -/

/-- The host clears DONE_IP only by bit 0 of IRQ_STAT (R45). -/
theorem WriteDoes.doneIpCleared {r : Reg} {v : Word} {s t : State} (h : WriteDoes r v s t) (hs : s.doneIp = true)
    (ht : t.doneIp = false) : r = .irqStat ∧ v.getLsbD 0 = true := by
  cases h
  case clearsDoneIp hr hv h => exact ⟨hr, hv⟩
  case illegal | nop | errs => subst t; exact nomatch ht
  all_goals subst t; exact nomatch hs.symm.trans ht

/-- The engine's share of an edge never clears DONE_IP (R144). -/
theorem doneIp_of_enginePhase {q : Option Req} {s u : State} (h : hostPhase q s = .next u)
    (ht : (enginePhase s u).doneIp = false) : u.doneIp = false := by
  rcases enginePhase_does h with ⟨-, e⟩ | ⟨f, -, -, ⟨-, e⟩ | ⟨-, e⟩⟩ <;> rw [e] at ht
  · exact ht
  · exact nomatch ht
  · exact ht

theorem step_doneIpCleared {s t : State} (hr : (nextCycle s).rst = false) (h : step s = .next t)
    (ht : t.doneIp = false) (hs : s.doneIp = true) :
    ∃ v, CarriesWrite (nextCycle s) .irqStat v ∧ v.getLsbD 0 = true := by
  obtain ⟨u, hu, rfl⟩ := step_phases hr h
  have cleared : u.doneIp = false := doneIp_of_enginePhase hu ht
  rcases hostPhase_does hu with ha | ⟨q, r, hq, hkind, hsize, hoff, hw⟩
  · rw [ha] at cleared
    exact nomatch hs.symm.trans cleared
  · obtain ⟨rfl, hv⟩ := hw.doneIpCleared hs cleared
    exact ⟨q.wdata, ⟨q, hq, hkind, hsize, hoff, rfl⟩, hv⟩

/-- An edge without reset that ends a command in flight raises DONE_IP (R144). -/
theorem EdgeDoes.completion {s t : State} (h : EdgeDoes s t) (hs : s.busy = true) (ht : t.busy = false) :
    t.doneIp = true := by
  cases h with
  | answers hb => exact nomatch hs.symm.trans hb
  | writes hb => exact nomatch hs.symm.trans hb
  | counts f u hf hk _ hu h => subst h; exact nomatch ht
  | completes f u hf hk _ hu h => subst h; rfl

/-- A CMD write that leaves BUSY = 0 has ended at once, with DONE and DONE_IP (R145). -/
theorem step_immediateEnd {s t : State} {c : Word} (hr : (nextCycle s).rst = false) (h : step s = .next t)
    (hs : s.busy = false) (ht : t.busy = false) (hc : CarriesWrite (nextCycle s) .cmd c) :
    t.doneIp = true ∧ t.done = true := by
  have idle : (s.takeCycle.answer okWrite).busy = false := hs
  obtain ⟨u, hu, rfl⟩ := step_phases hr h
  rw [req_of_carriesWrite hc, hostPhase, transact_writeReq, writeReg] at hu
  rw [enginePhase_idle (s.takeCycle_busy.trans hs)] at ht ⊢
  rcases writeCmd_idle_cases c idle with ⟨e, he⟩ | ⟨i, w, he⟩ <;> rw [he, Host.Outcome.next.injEq] at hu <;> subst hu
  · exact ⟨rfl, rfl⟩
  · exact nomatch ht

/-! ### The obligations -/

/-- Settles O9: the transaction meets the state before the completion, and the completion overrides DONE_IP. -/
theorem transactionPrecedesCompletion : Obligations.TransactionPrecedesCompletion := by
  intro s f rest hf hone
  refine ⟨fun x hin => ?_, fun x v hx hin => ?_, fun v hin => ?_⟩
  · refine ⟨_, step_completing hf hone hin (transact_readReq x _), ?_, rfl, rfl⟩
    rw [complete_reply, readReg_takeCycle]
    rfl
  · have busy : s.takeCycle.busy = true := (busy_iff _).2 ⟨f, hf⟩
    have dropped : transact (writeReq x v) s.takeCycle = .next (s.takeCycle.answer okWrite).dropWrite :=
      (transact_writeReq x v _).trans (writeReg_guarded_busy hx v busy)
    refine ⟨_, step_completing hf hone hin dropped, complete_reply _ f, complete_werr _ f, ?_, rfl, rfl⟩
    rw [readReg_complete_guarded hx]
    exact readReg_guarded_congr hx rfl ⟨rfl, rfl, rfl, rfl, rfl, rfl, rfl⟩
  · obtain ⟨u, hu⟩ := transact_next (writeReq .irqStat v) s.takeCycle
    exact ⟨_, step_completing hf hone hin hu, rfl, rfl⟩

/-- Settles O14: the outcome reports the first failing check, and a word of no command is issued as an illegal one. -/
theorem errorsFollowThePriorityTable : Obligations.ErrorsFollowThePriorityTable := by
  refine ⟨fun i s hb => exec_error hb, fun c s hb hc => ?_⟩
  have illegal : ∃ e, decode c = .error e := by
    rw [decode_of_ne_encode hc]
    split <;> exact ⟨_, rfl⟩
  obtain ⟨e, he⟩ := illegal
  exact ⟨_, (writeCmd_of_decode_error he s).trans (issueIllegal_idle hb), rfl⟩

/-- Settles O15: a launch clears ERR, so that the write has ended at once. -/
theorem errorsArePrecise : Obligations.ErrorsArePrecise := by
  intro c s t hb h herr
  rcases writeCmd_idle_cases c hb with ⟨e, he⟩ | ⟨i, w, he⟩ <;> rw [he, Host.Outcome.next.injEq] at h <;> subst h
  · rfl
  · exact nomatch herr

/-- Settles O44: a transaction does no more than answer, or it is a register write that is answered OKAY. -/
theorem refusedTransactionsHaveNoEffect : Obligations.RefusedTransactionsHaveNoEffect := by
  intro q s t a _ h ha hresp
  have host : hostPhase (some q) s = .next t := h
  have answered : t = { s with reply := t.reply } ∨ t.reply = some okWrite := by
    rcases hostPhase_does host with hsame | ⟨p, r, -, -, -, -, hw⟩
    · exact .inl hsame
    · exact hw.reply
  rcases answered with hsame | hok
  · rw [← ha]
    exact hsame
  · obtain rfl : a = okWrite := Option.some.inj (ha.symm.trans hok)
    exact absurd rfl hresp

/-- Settles O51: both fields are views of the one optional error, which a command whose checks pass does not set. -/
theorem errcodeIsZeroExactlyWithoutError : Obligations.ErrcodeIsZeroExactlyWithoutError := by
  simp only [Obligations.ErrcodeIsZeroExactlyWithoutError, readReg_status_err, readReg_status_errCode]
  refine ⟨fun s => ⟨errCode_eq_zero_of_err, errCode_range_of_err⟩, rfl, fun i s t hb h hpass => ?_⟩
  obtain ⟨u, hu, herr⟩ := exec_error (i := i) hb
  obtain rfl : u = t := Host.Outcome.next.inj (hu.symm.trans h)
  have clear : u.err = false := (err_eq_false_iff u).2 (herr.trans hpass)
  exact ⟨clear, errCode_eq_zero_of_err clear⟩

/-- Settles O59: the engine only raises DONE_IP, a CMD write that does not launch raises it, and of the register writes
only the one of IRQ_STAT clears it. -/
theorem everyCompletionRaisesDoneIp : Obligations.EveryCompletionRaisesDoneIp :=
  fun _ _ hr h => ⟨(step_edgeDoes hr h).completion, fun hs ht ⟨_, hc⟩ => step_immediateEnd hr h hs ht hc,
    step_doneIpCleared hr h⟩

end Sys2Proof.Machine

/-! PROOFS. Reset edges and hazards (70_reset_and_hazards.md). -/

namespace Sys2Proof.Machine

open Sys2Proof.Claims

/-- Settles O7: of the three things an edge can do, only the transaction during reset is no next state. -/
theorem onlyTransactionsDuringResetAreRefused : Obligations.OnlyTransactionsDuringResetAreRefused := by
  intro s
  rcases step_cases s with ⟨-, noReq, hstep⟩ | ⟨hrst, hreq, hstep⟩ | ⟨noRst, t, -, hstep⟩
  · simp [hstep, noReq]
  · exact ⟨fun _ => ⟨hrst, hreq⟩, fun _ => ⟨_, hstep⟩⟩
  · simp [hstep, noRst]

end Sys2Proof.Machine
